-- ==== Sys2Proof/Word.lean ====
section
/-! DEFINITION. The value types of the spec (`00_scope.md` rules R7, R9, R11): bytes, cell words, command words,
colour buses, pixels, grids of 64 pixels (8 by 8) and gamma tables of 32 entries. -/

namespace Sys2Proof

/-- `u8` (R9): a byte of a frame, a colour channel, a gamma entry. -/
abbrev Byte := BitVec 8

/-- `Word = u16` (R11): one packed cell. -/
abbrev Word := BitVec 16

/-- CMD (R70): one command word. -/
abbrev CmdWord := BitVec 32

/-- A 24-bit colour on a bus (R72): r in bits 23..16, g in 15..8, b in 7..0. -/
abbrev ColorBus := BitVec 24

/-- `Pixel = (r : u8, g : u8, b : u8)` (R11). -/
structure Pixel where
  r : Byte
  g : Byte
  b : Byte
deriving DecidableEq, Repr, Inhabited

/-- `Grid = Pixel[64]` in logical row-major order (R11): element `x + 8*y` is the pixel of (x, y). -/
abbrev Grid := Vector Pixel 64

/-- FRAME_IN and FRAME_OUT (R72, R73): 64 colours in bus format. -/
abbrev FrameBus := Vector ColorBus 64

/-- `GammaTable = u8[32]` (R11). -/
abbrev GammaTable := Vector Byte 32

end Sys2Proof
end

