-- ==== Sys2Proof/Syntax.lean ====
section
/-! DEFINITION. The commands (`30_encoding.md` rule R75): one constructor per row of spec/opcode_table.json, with the
operands the command word carries (R74). Operands on the buses are no part of the word; a step takes them from the
port (`StepInput`, R72). -/

namespace Sys2Proof

/-- Orientation (R11, R28): degrees clockwise from the device's native mounting. -/
inductive Orientation where
  | o0
  | o90
  | o180
  | o270
deriving DecidableEq, Repr, Inhabited

/-- The 13 commands of R75. X and Y are naturals (R74), bounded to 0..255 by `Instr.wf`. -/
inductive Instr where
  /-- SET_PIXEL (R141): X, Y. -/
  | setPixel (x y : Nat)
  /-- GET_PIXEL (R146): X, Y. -/
  | getPixel (x y : Nat)
  /-- SET_PIXELS (R164). -/
  | setPixels
  /-- GET_PIXELS (R167). -/
  | getPixels
  /-- CLEAR (R170): B, true for `Some(COLOR_IN)`. -/
  | clear (b : Bool)
  /-- FLIP_H (R174): RD. -/
  | flipH (rd : Bool)
  /-- FLIP_V (R177): RD. -/
  | flipV (rd : Bool)
  /-- SET_ORIENTATION (R180): ORI, RD. -/
  | setOrientation (ori : Orientation) (rd : Bool)
  /-- GET_GAMMA (R205). -/
  | getGamma
  /-- SET_GAMMA (R211). -/
  | setGamma
  /-- RESET_GAMMA (R215). -/
  | resetGamma
  /-- IS_LOW_LIGHT (R220). -/
  | isLowLight
  /-- SET_LOW_LIGHT (R225): B, the `enabled` flag. -/
  | setLowLight (b : Bool)
deriving DecidableEq, Repr

/-- The device's answer to a control call (R201). -/
inductive CtlResult where
  | ok
  | fail
deriving DecidableEq, Repr, Inhabited

/-- The free inputs of one command step: the command word and the operand buses (R70, R72), and the draws of the step
(R10: "a free input of the step"), which are the device's answer to the step's control call and the table it leaves
or returns when it fails (R201, R202). A command makes at most one control call (R59), so one answer is enough. -/
structure StepInput where
  /-- CMD (R70). -/
  cmd : CmdWord
  /-- COLOR_IN (R72). -/
  colorIn : ColorBus
  /-- FRAME_IN (R72). -/
  frameIn : FrameBus
  /-- GAMMA_IN (R72). -/
  gammaIn : GammaTable
  /-- The draw `res` of R201. -/
  ctlResult : CtlResult
  /-- The draw `u8[32]` of R202, used only when the call fails. -/
  ctlDraw : GammaTable
deriving DecidableEq, Repr, Inhabited

end Sys2Proof
end

