-- ==== Sys2Proof/WellFormed.lean ====
section
/-! DEFINITION. What the command word can carry: X and Y are 8-bit unsigned fields (R70, R71, R74), so a command is
well formed when its coordinates are in 0..255. A coordinate in 8..255 is well formed and ends with OUT_OF_BOUNDS. -/

namespace Sys2Proof

/-- A coordinate that fits its 8-bit field (R74). -/
def coordFits (v : Nat) : Bool := decide (v < 256)

/-- The command's operands are values the command word can carry (R74). -/
def Instr.wf : Instr → Bool
  | .setPixel x y => coordFits x && coordFits y
  | .getPixel x y => coordFits x && coordFits y
  | .setPixels => true
  | .getPixels => true
  | .clear _ => true
  | .flipH _ => true
  | .flipV _ => true
  | .setOrientation _ _ => true
  | .getGamma => true
  | .setGamma => true
  | .resetGamma => true
  | .isLowLight => true
  | .setLowLight _ => true

end Sys2Proof
end

