-- ==== Sys2Proof/Decode.lean ====
section
/-! DEFINITION. The command word (`30_encoding.md` rules R70 to R78): its fields, the opcode map, the decoder, which is
total and rejects by name, and the encoder. -/

namespace Sys2Proof

/-- The fields of CMD, from bit 31 down (R70). -/
structure CmdFields where
  op : BitVec 4
  x : BitVec 8
  y : BitVec 8
  ori : BitVec 2
  rd : BitVec 1
  b : BitVec 1
  rsvd : BitVec 8
deriving DecidableEq, Repr

/-- The fields of a command word (R70, R74). -/
def CmdFields.ofWord (w : CmdWord) : CmdFields where
  op := w.extractLsb' 28 4
  x := w.extractLsb' 20 8
  y := w.extractLsb' 12 8
  ori := w.extractLsb' 10 2
  rd := w.extractLsb' 9 1
  b := w.extractLsb' 8 1
  rsvd := w.extractLsb' 0 8

/-- The command word of the fields (R70): OP on top, RSVD at the bottom. -/
def CmdFields.toWord (f : CmdFields) : CmdWord := f.op ++ f.x ++ f.y ++ f.ori ++ f.rd ++ f.b ++ f.rsvd

/-- ROT (R28): the 2-bit code of an orientation. -/
def Orientation.rot : Orientation → BitVec 2
  | .o0 => 0
  | .o90 => 1
  | .o180 => 2
  | .o270 => 3

/-- The orientation of a 2-bit code (R28): all four codes are legal. -/
def Orientation.ofRot (v : BitVec 2) : Orientation :=
  if v = 0 then .o0 else if v = 1 then .o90 else if v = 2 then .o180 else .o270

/-- A one-bit field read as a boolean (R74). -/
def boolOfBit (v : BitVec 1) : Bool := decide (v = 1)

/-- The legal opcodes (R75). -/
inductive Op where
  | setPixel
  | getPixel
  | setPixels
  | getPixels
  | clear
  | flipH
  | flipV
  | setOrientation
  | getGamma
  | setGamma
  | resetGamma
  | isLowLight
  | setLowLight
deriving DecidableEq, Repr

/-- The command's opcode (R75). -/
def Instr.op : Instr → Op
  | .setPixel _ _ => .setPixel
  | .getPixel _ _ => .getPixel
  | .setPixels => .setPixels
  | .getPixels => .getPixels
  | .clear _ => .clear
  | .flipH _ => .flipH
  | .flipV _ => .flipV
  | .setOrientation _ _ => .setOrientation
  | .getGamma => .getGamma
  | .setGamma => .setGamma
  | .resetGamma => .resetGamma
  | .isLowLight => .isLowLight
  | .setLowLight _ => .setLowLight

/-- Column OP of R75. -/
def Op.code : Op → BitVec 4
  | .setPixel => 0x1
  | .getPixel => 0x2
  | .setPixels => 0x3
  | .getPixels => 0x4
  | .clear => 0x5
  | .flipH => 0x6
  | .flipV => 0x7
  | .setOrientation => 0x8
  | .getGamma => 0x9
  | .setGamma => 0xA
  | .resetGamma => 0xB
  | .isLowLight => 0xC
  | .setLowLight => 0xD

/-- Column match of R75. -/
def Op.matchWord : Op → CmdWord
  | .setPixel => 0x10000000
  | .getPixel => 0x20000000
  | .setPixels => 0x30000000
  | .getPixels => 0x40000000
  | .clear => 0x50000000
  | .flipH => 0x60000000
  | .flipV => 0x70000000
  | .setOrientation => 0x80000000
  | .getGamma => 0x90000000
  | .setGamma => 0xA0000000
  | .resetGamma => 0xB0000000
  | .isLowLight => 0xC0000000
  | .setLowLight => 0xD0000000

/-- Column mask of R75. -/
def Op.mask : Op → CmdWord
  | .setPixel => 0xF0000FFF
  | .getPixel => 0xF0000FFF
  | .setPixels => 0xFFFFFFFF
  | .getPixels => 0xFFFFFFFF
  | .clear => 0xFFFFFEFF
  | .flipH => 0xFFFFFDFF
  | .flipV => 0xFFFFFDFF
  | .setOrientation => 0xFFFFF1FF
  | .getGamma => 0xFFFFFFFF
  | .setGamma => 0xFFFFFFFF
  | .resetGamma => 0xFFFFFFFF
  | .isLowLight => 0xFFFFFFFF
  | .setLowLight => 0xFFFFFEFF

/-- Why a word is illegal. -/
inductive DecodeError where
  /-- OP is 0x0, 0xE or 0xF (R76). -/
  | reservedOpcode (op : BitVec 4)
  /-- A legal OP with a non-zero bit in RSVD or in a field the command does not use (R77). -/
  | strayBits (op : Op)
deriving DecidableEq, Repr

/-- The opcode a code selects; none for the reserved codes (R75, R76). -/
def Op.ofCode (v : BitVec 4) : Option Op :=
  match v.toNat with
  | 1 => some .setPixel
  | 2 => some .getPixel
  | 3 => some .setPixels
  | 4 => some .getPixels
  | 5 => some .clear
  | 6 => some .flipH
  | 7 => some .flipV
  | 8 => some .setOrientation
  | 9 => some .getGamma
  | 10 => some .setGamma
  | 11 => some .resetGamma
  | 12 => some .isLowLight
  | 13 => some .setLowLight
  | _ => none

/-- Column "CMD fields used" of R75: the command takes X and Y. -/
def Op.usesXY : Op → Bool
  | .setPixel | .getPixel => true
  | _ => false

/-- Column "CMD fields used" of R75: the command takes ORI. -/
def Op.usesOri : Op → Bool
  | .setOrientation => true
  | _ => false

/-- Column "CMD fields used" of R75: the command takes RD. -/
def Op.usesRd : Op → Bool
  | .flipH | .flipV | .setOrientation => true
  | _ => false

/-- Column "CMD fields used" of R75: the command takes B. -/
def Op.usesB : Op → Bool
  | .clear | .setLowLight => true
  | _ => false

/-- Every field the opcode's row does not list, and RSVD, is zero (R77). -/
def Op.fieldsClean (op : Op) (f : CmdFields) : Bool :=
  (op.usesXY || decide (f.x = 0 ∧ f.y = 0)) && (op.usesOri || decide (f.ori = 0))
    && (op.usesRd || decide (f.rd = 0)) && (op.usesB || decide (f.b = 0)) && decide (f.rsvd = 0)

/-- The command of an opcode with its operands assembled from the fields (R74). -/
def Op.assemble (op : Op) (f : CmdFields) : Instr :=
  match op with
  | .setPixel => .setPixel f.x.toNat f.y.toNat
  | .getPixel => .getPixel f.x.toNat f.y.toNat
  | .setPixels => .setPixels
  | .getPixels => .getPixels
  | .clear => .clear (boolOfBit f.b)
  | .flipH => .flipH (boolOfBit f.rd)
  | .flipV => .flipV (boolOfBit f.rd)
  | .setOrientation => .setOrientation (Orientation.ofRot f.ori) (boolOfBit f.rd)
  | .getGamma => .getGamma
  | .setGamma => .setGamma
  | .resetGamma => .resetGamma
  | .isLowLight => .isLowLight
  | .setLowLight => .setLowLight (boolOfBit f.b)

/-- The command the fields spell (R75 to R77). -/
def CmdFields.decode (f : CmdFields) : Except DecodeError Instr :=
  match Op.ofCode f.op with
  | none => .error (.reservedOpcode f.op)
  | some op => if op.fieldsClean f then .ok (op.assemble f) else .error (.strayBits op)

/-- The decoder (R75 to R78): total on every 32-bit word. -/
def decode (w : CmdWord) : Except DecodeError Instr := (CmdFields.ofWord w).decode

/-- Fields with opcode `op` and everything else zero. -/
def CmdFields.ofOp (op : Op) : CmdFields := ⟨op.code, 0, 0, 0, 0, 0, 0⟩

/-- The fields of a command (R74, R75): every field it does not use is zero. -/
def Instr.fields (i : Instr) : CmdFields :=
  match i with
  | .setPixel x y => { CmdFields.ofOp .setPixel with x := BitVec.ofNat 8 x, y := BitVec.ofNat 8 y }
  | .getPixel x y => { CmdFields.ofOp .getPixel with x := BitVec.ofNat 8 x, y := BitVec.ofNat 8 y }
  | .setPixels => CmdFields.ofOp .setPixels
  | .getPixels => CmdFields.ofOp .getPixels
  | .clear b => { CmdFields.ofOp .clear with b := BitVec.ofBool b }
  | .flipH rd => { CmdFields.ofOp .flipH with rd := BitVec.ofBool rd }
  | .flipV rd => { CmdFields.ofOp .flipV with rd := BitVec.ofBool rd }
  | .setOrientation ori rd =>
    { CmdFields.ofOp .setOrientation with ori := ori.rot, rd := BitVec.ofBool rd }
  | .getGamma => CmdFields.ofOp .getGamma
  | .setGamma => CmdFields.ofOp .setGamma
  | .resetGamma => CmdFields.ofOp .resetGamma
  | .isLowLight => CmdFields.ofOp .isLowLight
  | .setLowLight b => { CmdFields.ofOp .setLowLight with b := BitVec.ofBool b }

/-- The word of a command (R70, R75); it carries a well-formed command whole. -/
def encode (i : Instr) : CmdWord := i.fields.toWord

/-- The command word a numeral of `nbits` bits stands for: bits above `nbits` are 0. Every command is one 32-bit word
(R78), and bit 0 of the table is bit 0 of CMD (R9, R70). -/
def tableWord (nbits w : Nat) : CmdWord := BitVec.ofNat 32 (w % 2 ^ nbits)

/-- What the decoder reads from a word numbered as spec/opcode_table.json numbers it. -/
def decodeTableWord (nbits w : Nat) : Option Instr :=
  match decode (tableWord nbits w) with
  | .ok i => some i
  | .error _ => none

end Sys2Proof
end

