-- ==== Sys2Proof/Config.lean ====
section
/-! DEFINITION. The parameters the source leaves open (`00_scope.md` rule R8: "The model must not assume a value for any
of them"). Each is a constant with no value in Lean, so nothing can be proved of it; the constraints R8 puts on the two
preset tables are the proof fields of `Config.Presets`. `State.reset` copies them into `State.params`, where every
statement quantifies over them. -/

namespace Sys2Proof

/-- GETPIXEL_ADDRESSING (R8, R147): how GET_PIXEL finds its cell. -/
inductive Addressing where
  /-- At the rotated index (R146); the normative value. -/
  | mapped
  /-- At the logical index `x + 8*y`. -/
  | logical
deriving DecidableEq, Repr, Inhabited

/-- The outcome of DISCOVER (R271). -/
inductive Discovery where
  | found
  | notFound
  | error
deriving DecidableEq, Repr, Inhabited

/-- A gamma table whose entries are all at most 31 (R8, R210). -/
def GammaTable.legal (t : GammaTable) : Bool := t.toList.all fun e => decide (e.toNat ≤ 31)

/-- DEFAULT_GAMMA and LOW_LIGHT_TABLE with the constraints of R8. The field defaults only show that such a pair
exists; `Config.presets` takes no value from them. -/
structure Config.Presets where
  defaultGamma : GammaTable := Vector.ofFn fun _ => 0
  lowLightTable : GammaTable := Vector.ofFn fun _ => 1
  default_legal : defaultGamma.legal = true := by decide
  low_legal : lowLightTable.legal = true := by decide
  differ : lowLightTable ≠ defaultGamma := by decide
deriving Inhabited

/-- DEFAULT_GAMMA and LOW_LIGHT_TABLE (R8, D18, D19). DESIGN CHOICE (log 13): opaque. -/
opaque Config.presets : Config.Presets

/-- INIT_FRAME (R8, R273, D11), by byte offset. DESIGN CHOICE (log 6): opaque. -/
opaque Config.initFrame : Nat → Byte

/-- INIT_ORIENTATION (R8, R273, D12). DESIGN CHOICE (log 7): opaque. -/
opaque Config.initOrientation : Orientation

/-- INIT_GAMMA (R8, R274, D13). DESIGN CHOICE (log 8): opaque. -/
opaque Config.initGamma : GammaTable

/-- PANEL_FRAME before the first DRAW (R30, R274), by byte offset. DESIGN CHOICE (log 9): opaque. -/
opaque Config.initPanel : Nat → Byte

/-- CHECK_CONTROL_RESULT (R8, R204, D16). DESIGN CHOICE (log 4): opaque. -/
opaque Config.checkControlResult : Bool

/-- GETPIXEL_ADDRESSING (R8, R147, D10), open: MAPPED is a premise of the claims that need it. DESIGN CHOICE (log 5):
opaque. -/
opaque Config.getPixelAddressing : Addressing

/-- DEVICE_ID_STRING (R8, R271, D15). DESIGN CHOICE (log 10): opaque. -/
opaque Config.deviceIdString : String

/-- The discovery draw of the construction that `State.reset` stands for (R271). DESIGN CHOICE (log 10): opaque. -/
opaque Config.discover : String → Discovery

/-- What the command port carries before any command (log 2) and the draws beside it (log 3). DESIGN CHOICE: opaque. -/
opaque Config.idlePort : StepInput

end Sys2Proof
end

