-- ==== Sys2Proof/Machine/Memory.lean ====
section
/-! DEFINITION. Frames as data (`20_memory.md` rules R50 to R53, R57): 128 bytes at offsets 0..127, held as a list of
(offset, byte) pairs in one canonical form, and the reads and writes of bytes, little-endian words and cells. -/

namespace Sys2Proof.Machine

/-- A 128-byte frame: RAW_FRAME, PANEL_FRAME, or the buffer of a FrameWrite. Canonical form: `Memory.wf`. -/
abbrev Memory := List Host.Cell

/-- What an unlisted offset reads as. Only the representation rests on it: reset gives every offset a byte
(R273, log 12). DESIGN CHOICE. -/
def Memory.unlisted : Byte := 0

/-- The canonical form: offsets strictly rise, lie in 0..127 (R50), and no entry equals what an unlisted offset reads
as. -/
def Memory.wf (m : Memory) : Bool :=
  decide (m.Pairwise (fun p q => p.1 < q.1) ∧ ∀ c ∈ m, c.1 < 128 ∧ c.2 ≠ Memory.unlisted)

/-- The byte at an offset. -/
def Memory.byte : Memory → Nat → Byte
  | [], _ => Memory.unlisted
  | (a, v) :: rest, k => if a = k then v else Memory.byte rest k

/-- The frame with no entry at an offset. -/
def Memory.dropByte : Memory → Nat → Memory
  | [], _ => []
  | (a, v) :: rest, k => if a = k then Memory.dropByte rest k else (a, v) :: Memory.dropByte rest k

/-- An entry put where the offsets keep rising. -/
def Memory.putByte : Memory → Nat → Byte → Memory
  | [], k, b => [(k, b)]
  | (a, v) :: rest, k, b => if k < a then (k, b) :: (a, v) :: rest else (a, v) :: Memory.putByte rest k b

/-- One byte written; the canonical form is kept. -/
def Memory.setByte (m : Memory) (k : Nat) (b : Byte) : Memory :=
  if b = Memory.unlisted then Memory.dropByte m k else Memory.putByte (Memory.dropByte m k) k b

/-- `MemRead(off, 2)` (R10, R51): byte `off` is the low byte. -/
def Memory.word (m : Memory) (off : Nat) : Word := Memory.byte m (off + 1) ++ Memory.byte m off

/-- `MemWrite(off, 2, w)` (R10, R51): low byte at `off`, high byte at `off + 1`. -/
def Memory.setWord (m : Memory) (off : Nat) (w : Word) : Memory :=
  Memory.setByte (Memory.setByte m off (w.extractLsb' 0 8)) (off + 1) (w.extractLsb' 8 8)

/-- Cell i: the word at byte offset `2*i` (R24, R53). -/
def Memory.cell (m : Memory) (i : Nat) : Word := Memory.word m (2 * i)

/-- Cell i written. -/
def Memory.setCell (m : Memory) (i : Nat) (w : Word) : Memory := Memory.setWord m (2 * i) w

/-- Cells written one after another, in the list's order. -/
def Memory.setCells (m : Memory) (l : List (Nat × Word)) : Memory :=
  l.foldl (fun m p => Memory.setCell m p.1 p.2) m

/-- The entry of offset k in a frame whose bytes are f; none where f k is what an unlisted offset reads as. -/
def Memory.entry (f : Nat → Byte) (k : Nat) : Option Host.Cell :=
  if f k = Memory.unlisted then none else some (k, f k)

/-- All 128 bytes written, `for k in 0..127` (R170): no old content survives. -/
def Memory.ofBytes (f : Nat → Byte) : Memory := (List.range 128).filterMap (Memory.entry f)

/-- All 64 cells written, `for i in 0..63` (R164, R170), little-endian (R51): no old content survives. -/
def Memory.ofCells (f : Nat → Word) : Memory :=
  Memory.ofBytes fun k => if k % 2 = 0 then (f (k / 2)).extractLsb' 0 8 else (f (k / 2)).extractLsb' 8 8

end Sys2Proof.Machine
end

