-- ==== Sys2Proof/Machine/State.lean ====
section
/-! DEFINITION. The state of the block (`10_state.md` rule R23), its device port events (R29), its response (R73), the
host's inputs, and the state after reset (`70_reset_and_hazards.md` rules R270 to R276). State is plain data. -/

namespace Sys2Proof.Machine

/-- The statuses other than OK (R240). A response never carries OK as an error, and the reserved codes 6 and 7 have no
constructor. -/
inductive Err where
  /-- 1, a coordinate above 7 in SET_PIXEL or GET_PIXEL. -/
  | outOfBounds
  /-- 2, an entry above 31 in SET_GAMMA. -/
  | invalidGamma
  /-- 3, reset found no device. -/
  | missingDevice
  /-- 4, discovery failed, or a checked control call failed. -/
  | deviceError
  /-- 5, an illegal command word. -/
  | illegalCommand
deriving DecidableEq, Repr

/-- Why construction failed (R32): the s of FAILED(s). -/
inductive FailCause where
  | missingDevice
  | deviceError
deriving DecidableEq, Repr

/-- LIFECYCLE (R32). -/
inductive Lifecycle where
  | ready
  | failed (s : FailCause)
deriving DecidableEq, Repr

/-- The payload of an OK response (R73), in the bus formats of R72 and R73. -/
inductive Payload where
  /-- No payload output has a value. -/
  | none
  /-- COLOR_OUT. -/
  | color (c : ColorBus)
  /-- FRAME_OUT. -/
  | frame (f : FrameBus)
  /-- GAMMA_OUT. -/
  | gamma (t : GammaTable)
  /-- BOOL_OUT. -/
  | bool (b : Bool)
deriving DecidableEq, Repr

/-- The response port (R73): "`Except Status Payload`", with no payload when the status is not OK. -/
abbrev Response := Except Err Payload

/-- The argument of the reset/low-light-select request: SEL_DEFAULT and SEL_LOW (R8, R29). Only their identity is
observable (log 17). -/
inductive Selector where
  | selDefault
  | selLow
deriving DecidableEq, Repr

/-- The control request codes CTL_GET_GAMMA, CTL_SET_GAMMA and CTL_RESET_GAMMA (R8, R29): pairwise distinct, no
numeric value (log 17). -/
inductive CtlCode where
  | getGamma
  | setGamma
  | resetGamma
deriving DecidableEq, Repr

/-- The argument of a control call (R29). -/
inductive CtlArg where
  | none
  | table (t : GammaTable)
  | selector (s : Selector)
deriving DecidableEq, Repr

/-- A control call with the argument its request takes (R29, R203). -/
inductive Request where
  | getGamma
  | setGamma (t : GammaTable)
  | resetGamma (sel : Selector)
deriving DecidableEq, Repr

/-- The events of the device port (R29). -/
inductive Event where
  /-- `FrameWrite(buf)`, by each DRAW. -/
  | frameWrite (buf : Memory)
  /-- `CtlCall(req, arg, res, data)`, by each control call. -/
  | ctlCall (req : CtlCode) (arg : CtlArg) (res : CtlResult) (data : Option GammaTable)
deriving DecidableEq, Repr

/-- What the host does next (R258): a command on the port, or a reset with its discovery draw (R271). -/
inductive HostInput where
  | command (c : StepInput)
  | reset (d : Discovery)
deriving DecidableEq, Repr

/-- The parameters of R8 that a step reads. No step changes them (log 4). -/
structure Params where
  /-- INIT_FRAME. -/
  initFrame : Memory
  /-- INIT_ORIENTATION. -/
  initOrientation : Orientation
  /-- DEFAULT_GAMMA. -/
  defaultGamma : GammaTable
  /-- LOW_LIGHT_TABLE. -/
  lowLightTable : GammaTable
  /-- CHECK_CONTROL_RESULT. -/
  checkControlResult : Bool
  /-- GETPIXEL_ADDRESSING. -/
  getPixelAddressing : Addressing
deriving DecidableEq, Repr

/-- The constraints of R8 on the parameters. -/
def Params.wf (p : Params) : Bool :=
  p.initFrame.wf && p.defaultGamma.legal && p.lowLightTable.legal && decide (p.lowLightTable ≠ p.defaultGamma)

/-- The whole state: R23's six components, then the model's own fields. -/
structure State where
  /-- LIFECYCLE (R32). -/
  lifecycle : Lifecycle
  /-- RAW_FRAME (R24, R25): always in logical order. -/
  frame : Memory
  /-- ORIENTATION (R28). -/
  orientation : Orientation
  /-- GAMMA_LUT (R27), in the device. -/
  gammaLut : GammaTable
  /-- PANEL_FRAME (R30), in the device. -/
  panelFrame : Memory
  /-- EVENT_LOG (R29), oldest first. -/
  events : List Event
  /-- The response port (R73): what the last command, or the construction, returned (log 11). -/
  response : Response
  /-- The command port (R70, R72) and the draws of the step (R10): the inputs of the command last taken (log 2, 3). -/
  port : StepInput
  /-- What the host will still do, oldest first (log 1). -/
  pending : List HostInput
  /-- The parameters (log 4). -/
  params : Params
deriving DecidableEq, Repr

/-- The faults of the machine: none. "All errors are returned as values" (R241), no trap exists (R248), and a misaligned
or out-of-range frame access cannot arise (R53). Nothing raises one (log 23). -/
inductive Fault where
deriving DecidableEq, Repr

/-- The refusals of the machine. -/
inductive Refusal where
  /-- Raised by an arm of `exec` whose command has no meaning yet; no arm does (safe). -/
  | notModelled (mnemonic : String)
deriving DecidableEq, Repr

/-- FAILED(s) as a status (R32, R245). -/
def FailCause.err : FailCause → Err
  | .missingDevice => .missingDevice
  | .deviceError => .deviceError

/-- LIFECYCLE from the discovery draw (R270). -/
def Lifecycle.ofDiscovery : Discovery → Lifecycle
  | .found => .ready
  | .notFound => .failed .missingDevice
  | .error => .failed .deviceError

/-- What the construction returns to the host (R258, R240): OK, or the failure's status. DEDUCED (log 11). -/
def Response.ofLifecycle : Lifecycle → Response
  | .ready => .ok .none
  | .failed s => .error s.err

/-- The machine right after reset (R270, R276): RAW_FRAME, ORIENTATION, GAMMA_LUT and PANEL_FRAME hold the open
parameters of R8 and R274, EVENT_LOG is empty, and the host has done nothing yet. -/
def State.reset : State where
  lifecycle := Lifecycle.ofDiscovery (Config.discover Config.deviceIdString)
  frame := Memory.ofBytes Config.initFrame
  orientation := Config.initOrientation
  gammaLut := Config.initGamma
  panelFrame := Memory.ofBytes Config.initPanel
  events := []
  response := Response.ofLifecycle (Lifecycle.ofDiscovery (Config.discover Config.deviceIdString))
  port := Config.idlePort
  pending := []
  params :=
    { initFrame := Memory.ofBytes Config.initFrame
      initOrientation := Config.initOrientation
      defaultGamma := Config.presets.defaultGamma
      lowLightTable := Config.presets.lowLightTable
      checkControlResult := Config.checkControlResult
      getPixelAddressing := Config.getPixelAddressing }

end Sys2Proof.Machine
end

