-- ==== Sys2Proof/Machine/Flags.lean ====
section
/-! DEFINITION. The block has no flags (`10_state.md` rule R22); each command's outcome is the STATUS of its response
(`60_exceptions.md` rule R240). -/

namespace Sys2Proof.Machine

/-- The code of a status other than OK (R240). -/
def Err.code : Err → BitVec 3
  | .outOfBounds => 1
  | .invalidGamma => 2
  | .missingDevice => 3
  | .deviceError => 4
  | .illegalCommand => 5

/-- STATUS (R73, R240). -/
def Response.status : Response → BitVec 3
  | .ok _ => 0
  | .error e => e.code

end Sys2Proof.Machine
end

