-- ==== Sys2Proof/Machine/Mapper.lean ====
section
/-! DEFINITION. The orientation_mapper (`41_orientation_mapper.md` rules R120, R121) and the buffer DRAW sends
(`43_raster_bulk.md` rules R160, R161). -/

namespace Sys2Proof.Machine

/-- The logical index `x + 8*y` (R12). -/
def logicalIndex (x y : Fin 8) : Fin 64 := ⟨x.val + 8 * y.val, by omega⟩

/-- PHYS_INDEX (R120); its domain is 0..7 on both axes by type (R121). -/
def physIndex (x y : Fin 8) (o : Orientation) : Fin 64 :=
  match o with
  | .o0 => ⟨x.val + 8 * y.val, by omega⟩
  | .o90 => ⟨(7 - y.val) + 8 * x.val, by omega⟩
  | .o180 => ⟨63 - (x.val + 8 * y.val), by omega⟩
  | .o270 => ⟨y.val + 8 * (7 - x.val), by omega⟩

/-- The logical coordinates in DRAW's loop order: y outer, x inner (R160). -/
def coords : List (Fin 8 × Fin 8) :=
  (List.finRange 8).flatMap fun y => (List.finRange 8).map fun x => (x, y)

/-- The buffer of DRAW (R160): the frame verbatim at O0, else each logical cell copied to its physical cell. The buffer
starts empty; every byte of it is written. -/
def rotate (frame : Memory) (o : Orientation) : Memory :=
  if o = .o0 then frame
  else Memory.setCells []
    (coords.map fun p => ((physIndex p.1 p.2 o).val, Memory.cell frame (logicalIndex p.1 p.2).val))

end Sys2Proof.Machine
end

