-- ==== Sys2Proof/Machine/Codec.lean ====
section
/-! DEFINITION. The rgb_24_to_16_codec (`40_codec.md` rules R100, R102). -/

namespace Sys2Proof.Machine

/-- PACK (R100): 5-6-5 by truncation. -/
def pack (p : Pixel) : Word :=
  let r5 : Word := (p.r >>> 3).zeroExtend 16
  let g6 : Word := (p.g >>> 2).zeroExtend 16
  let b5 : Word := (p.b >>> 3).zeroExtend 16
  (r5 <<< 11) ||| (g6 <<< 5) ||| b5

/-- UNPACK (R102), the literal formula; the green intermediate is 16 bits wide and reduced mod 256 (D9, log 20). -/
def unpack (w : Word) : Pixel :=
  let msb : Word := w >>> 8
  let lsb : Word := w &&& 0xFF
  { r := (msb &&& 0xF8).truncate 8
    g := ((((msb &&& 0x07) <<< 3) ||| (lsb &&& 0xE0)) <<< 2).truncate 8
    b := ((lsb &&& 0x1F) <<< 3).truncate 8 }

end Sys2Proof.Machine
end

