-- ==== Sys2Proof/Machine/Operands.lean ====
section
/-! DEFINITION. Operand forms: colours, grids and gamma tables on the buses (`30_encoding.md` rules R72 to R74) and
SET_GAMMA's operand check (`44_gamma.md` rule R210). The coordinate check (R142) is a condition of its two commands. -/

namespace Sys2Proof.Machine

/-- A colour bus read as a pixel (R72). -/
def pixelOfBus (c : ColorBus) : Pixel where
  r := c.extractLsb' 16 8
  g := c.extractLsb' 8 8
  b := c.extractLsb' 0 8

/-- A pixel put on a colour bus (R73). -/
def busOfPixel (p : Pixel) : ColorBus := p.r ++ p.g ++ p.b

/-- FRAME_IN read as a grid (R72). -/
def gridOfBus (f : FrameBus) : Grid := Vector.ofFn fun i => pixelOfBus f[i]

/-- A grid put on FRAME_OUT (R73). -/
def busOfGrid (g : Grid) : FrameBus := Vector.ofFn fun i => busOfPixel g[i]

/-- No entry of the table exceeds 31 (R210, R211). -/
def gammaLegal (t : GammaTable) : Bool := t.toList.all fun e => decide (e.toNat ≤ 31)

end Sys2Proof.Machine
end

