-- ==== Sys2Proof/Machine/Ops.lean ====
section
/-! DEFINITION. The shared operations: taking an input, ending a command (`60_exceptions.md` rules R244 to R247), DRAW
(`43_raster_bulk.md` rule R160), the control call (`44_gamma.md` rules R201 to R204), and the reset process
(`70_reset_and_hazards.md` rule R270). The block has no trap entry and no trap return (R248, R249): an error is the
response of the command that met it, and `raise` is all there is to taking one. -/

namespace Sys2Proof.Machine

/-- `respond(OK, ...)` (R10). -/
def respond (p : Payload) (s : State) : State := { s with response := .ok p }

/-- `raise <Status>()` (R10, R248): the status is the whole effect. -/
def raise (e : Err) (s : State) : State := { s with response := .error e }

/-- Check 2 (R245): a command runs only when LIFECYCLE is READY; otherwise it ends with the FAILED status. -/
def command (s : State) (body : State → State) : Host.Outcome State Fault Refusal :=
  .next (match s.lifecycle with
    | .ready => body s
    | .failed c => raise c.err s)

/-- `Emit(e)` (R10). -/
def emit (e : Event) (s : State) : State := { s with events := s.events ++ [e] }

/-- DRAW (R160): emit the frame's rotated copy, then record it as what the device was last sent. -/
def draw (s : State) : State :=
  let buf := rotate s.frame s.orientation
  { emit (.frameWrite buf) s with panelFrame := buf }

/-- RAW_FRAME replaced, then DRAW. -/
def storeAndDraw (m : Memory) (s : State) : State := draw { s with frame := m }

/-- The grid GET_PIXELS reads (R167): UNPACK of each cell in logical order, whatever ORIENTATION is. -/
def gridOfFrame (m : Memory) : Grid := Vector.ofFn fun i => unpack (Memory.cell m i.val)

/-- The frame SET_PIXELS stores (R164): PACK of each pixel in logical order. -/
def frameOfGrid (g : Grid) : Memory :=
  Memory.ofCells fun i => if h : i < 64 then pack g[i] else 0

/-- The request code of a control call (R29). -/
def Request.code : Request → CtlCode
  | .getGamma => .getGamma
  | .setGamma _ => .setGamma
  | .resetGamma _ => .resetGamma

/-- The argument of a control call (R29). -/
def Request.arg : Request → CtlArg
  | .getGamma => .none
  | .setGamma t => .table t
  | .resetGamma sel => .selector sel

/-- GAMMA_LUT after a successful call (R203). -/
def deviceDo (p : Params) (r : Request) (lut : GammaTable) : GammaTable :=
  match r with
  | .getGamma => lut
  | .setGamma t => t
  | .resetGamma .selDefault => p.defaultGamma
  | .resetGamma .selLow => p.lowLightTable

/-- GAMMA_LUT after a failed call (R202): unchanged by a GET, drawn otherwise. -/
def deviceFail (r : Request) (drawn lut : GammaTable) : GammaTable :=
  match r with
  | .getGamma => lut
  | .setGamma _ => drawn
  | .resetGamma _ => drawn

/-- The table a CTL_GET_GAMMA call returns: the device's on success (R203), drawn on failure (R202). -/
def ctlTable (s : State) : GammaTable :=
  match s.port.ctlResult with
  | .ok => s.gammaLut
  | .fail => s.port.ctlDraw

/-- The data of a control call (R202, R203): only CTL_GET_GAMMA returns any. -/
def ctlData (r : Request) (s : State) : Option GammaTable :=
  match r with
  | .getGamma => some (ctlTable s)
  | .setGamma _ => none
  | .resetGamma _ => none

/-- GAMMA_LUT after the call (R202, R203), by the drawn result. -/
def ctlLut (r : Request) (s : State) : GammaTable :=
  match s.port.ctlResult with
  | .ok => deviceDo s.params r s.gammaLut
  | .fail => deviceFail r s.port.ctlDraw s.gammaLut

/-- `Ctl(req, arg)` (R201): the device acts, and the event is emitted. -/
def ctl (r : Request) (s : State) : State :=
  { emit (.ctlCall r.code r.arg s.port.ctlResult (ctlData r s)) s with gammaLut := ctlLut r s }

/-- A control call, then DEVICE_ERROR if it failed and results are checked (R204), else OK with a payload. -/
def ctlRespond (r : Request) (p : Payload) (s : State) : State :=
  if s.port.ctlResult = .fail ∧ s.params.checkControlResult = true then raise .deviceError (ctl r s)
  else respond p (ctl r s)

/-- RESET() with the discovery draw d (R270): the construction's answer goes to the response port (log 11). GAMMA_LUT
and PANEL_FRAME are the device's and are not touched (R274). -/
def construct (d : Discovery) (s : State) : State :=
  { s with
    events := []
    lifecycle := Lifecycle.ofDiscovery d
    frame := s.params.initFrame
    orientation := s.params.initOrientation
    response := Response.ofLifecycle (Lifecycle.ofDiscovery d) }

/-- A command taken from the host: its word and buses are on the port (R70, R72), and `rest` is still pending. -/
def accept (c : StepInput) (rest : List HostInput) (s : State) : State :=
  { s with port := c, pending := rest }

/-- Check 1 (R244): a word that spells no command ends with ILLEGAL_COMMAND and does nothing else. -/
def illegal (_ : DecodeError) (s : State) : State := raise .illegalCommand s

/-- A command word put on the port as the host's next move; the buses and draws stay what the port carries (log 22). -/
def placeWord (s : State) (w : CmdWord) : State :=
  { s with pending := .command { s.port with cmd := w } :: s.pending }

end Sys2Proof.Machine
end

