-- ==== Sys2Proof/Machine/Bulk.lean ====
section
/-! DEFINITION. The bulk raster commands (`43_raster_bulk.md`). None of them can fail once LIFECYCLE is READY. -/

namespace Sys2Proof.Machine

/-- The pseudocode of SET_PIXELS (R164). -/
def setPixelsBody (s : State) : State :=
  respond .none (storeAndDraw (frameOfGrid (gridOfBus s.port.frameIn)) s)

/-- SET_PIXELS (R164). -/
def execSetPixels (s : State) : Host.Outcome State Fault Refusal := command s setPixelsBody

/-- The pseudocode of GET_PIXELS (R167). -/
def getPixelsBody (s : State) : State := respond (.frame (busOfGrid (gridOfFrame s.frame))) s

/-- GET_PIXELS (R167). -/
def execGetPixels (s : State) : Host.Outcome State Fault Refusal := command s getPixelsBody

/-- The frame CLEAR stores (R170): all 128 bytes zero, or every cell the packed colour. -/
def clearFrame (b : Bool) (color : ColorBus) : Memory :=
  match b with
  | false => Memory.ofBytes fun _ => 0
  | true => Memory.ofCells fun _ => pack (pixelOfBus color)

/-- The pseudocode of CLEAR (R170): the draw is unconditional. -/
def clearBody (b : Bool) (s : State) : State :=
  respond .none (storeAndDraw (clearFrame b s.port.colorIn) s)

/-- CLEAR (R170). -/
def execClear (b : Bool) (s : State) : Host.Outcome State Fault Refusal := command s (clearBody b)

/-- The row reversal F_H (R174): `h[x + 8*y] = g[(7 - x) + 8*y]`. -/
def flipRows (g : Grid) : Grid :=
  Vector.ofFn fun i => g[(7 - i.val % 8) + 8 * (i.val / 8)]'(by omega)

/-- The row swap F_V (R177): `h[x + 8*y] = g[x + 8*(7 - y)]`. -/
def swapRows (g : Grid) : Grid :=
  Vector.ofFn fun i => g[i.val % 8 + 8 * (7 - i.val / 8)]'(by omega)

/-- The end of a flip (R174, R177): with RD, as SET_PIXELS of the flipped grid; the grid is returned either way. -/
def finishFlip (rd : Bool) (h : Grid) (s : State) : State :=
  match rd with
  | true => respond (.frame (busOfGrid h)) (storeAndDraw (frameOfGrid h) s)
  | false => respond (.frame (busOfGrid h)) s

/-- The pseudocode of FLIP_H (R174). -/
def flipHBody (rd : Bool) (s : State) : State := finishFlip rd (flipRows (gridOfFrame s.frame)) s

/-- FLIP_H (R174). -/
def execFlipH (rd : Bool) (s : State) : Host.Outcome State Fault Refusal := command s (flipHBody rd)

/-- The pseudocode of FLIP_V (R177). -/
def flipVBody (rd : Bool) (s : State) : State := finishFlip rd (swapRows (gridOfFrame s.frame)) s

/-- FLIP_V (R177). -/
def execFlipV (rd : Bool) (s : State) : Host.Outcome State Fault Refusal := command s (flipVBody rd)

/-- The pseudocode of SET_ORIENTATION (R180): the draw, if any, uses the new orientation. -/
def setOrientationBody (ori : Orientation) (rd : Bool) (s : State) : State :=
  match rd with
  | true => respond .none (draw { s with orientation := ori })
  | false => respond .none { s with orientation := ori }

/-- SET_ORIENTATION (R180). -/
def execSetOrientation (ori : Orientation) (rd : Bool) (s : State) : Host.Outcome State Fault Refusal :=
  command s (setOrientationBody ori rd)

end Sys2Proof.Machine
end

