-- ==== Sys2Proof/Machine/Gamma.lean ====
section
/-! DEFINITION. The gamma commands (`44_gamma.md`). They never touch RAW_FRAME, ORIENTATION or PANEL_FRAME (R227). -/

namespace Sys2Proof.Machine

/-- The pseudocode of GET_GAMMA (R205): the table as the call returned it, not validated (R206). -/
def getGammaBody (s : State) : State := ctlRespond .getGamma (.gamma (ctlTable s)) s

/-- GET_GAMMA (R205). -/
def execGetGamma (s : State) : Host.Outcome State Fault Refusal := command s getGammaBody

/-- The pseudocode of SET_GAMMA (R211): the whole table is checked before any call. -/
def setGammaBody (s : State) : State :=
  match gammaLegal s.port.gammaIn with
  | true => ctlRespond (.setGamma s.port.gammaIn) .none s
  | false => raise .invalidGamma s

/-- SET_GAMMA (R211). -/
def execSetGamma (s : State) : Host.Outcome State Fault Refusal := command s setGammaBody

/-- The pseudocode of RESET_GAMMA (R215). -/
def resetGammaBody (s : State) : State := ctlRespond (.resetGamma .selDefault) .none s

/-- RESET_GAMMA (R215). -/
def execResetGamma (s : State) : Host.Outcome State Fault Refusal := command s resetGammaBody

/-- The pseudocode of IS_LOW_LIGHT (R220): the table as the call returned it, compared with LOW_LIGHT_TABLE. -/
def isLowLightBody (s : State) : State :=
  ctlRespond .getGamma (.bool (decide (ctlTable s = s.params.lowLightTable))) s

/-- IS_LOW_LIGHT (R220). -/
def execIsLowLight (s : State) : Host.Outcome State Fault Refusal := command s isLowLightBody

/-- The pseudocode of SET_LOW_LIGHT (R225): a selector, not a table; SET_GAMMA's check is bypassed (R226). -/
def setLowLightBody (b : Bool) (s : State) : State :=
  ctlRespond (.resetGamma (if b then .selLow else .selDefault)) .none s

/-- SET_LOW_LIGHT (R225). -/
def execSetLowLight (b : Bool) (s : State) : Host.Outcome State Fault Refusal := command s (setLowLightBody b)

end Sys2Proof.Machine
end

