-- ==== Sys2Proof/Machine/Pixel.lean ====
section
/-! DEFINITION. The single-pixel commands (`42_raster_pixel.md`). -/

namespace Sys2Proof.Machine

/-- The pseudocode of SET_PIXEL (R141): per-axis bounds check, the packed colour at the logical cell, then DRAW. -/
def setPixelBody (x y : Nat) (s : State) : State :=
  if x < 8 ∧ y < 8 then
    respond .none (storeAndDraw (Memory.setCell s.frame (x + 8 * y) (pack (pixelOfBus s.port.colorIn))) s)
  else raise .outOfBounds s

/-- SET_PIXEL (R141). -/
def execSetPixel (x y : Nat) (s : State) : Host.Outcome State Fault Refusal := command s (setPixelBody x y)

/-- The RAW_FRAME cell GET_PIXEL reads (R146, R147). -/
def readIndex (a : Addressing) (x y : Fin 8) (o : Orientation) : Fin 64 :=
  match a with
  | .mapped => physIndex x y o
  | .logical => logicalIndex x y

/-- The pseudocode of GET_PIXEL (R146): per-axis bounds check, then UNPACK of the addressed cell. -/
def getPixelBody (x y : Nat) (s : State) : State :=
  if h : x < 8 ∧ y < 8 then
    let i := readIndex s.params.getPixelAddressing ⟨x, h.1⟩ ⟨y, h.2⟩ s.orientation
    respond (.color (busOfPixel (unpack (Memory.cell s.frame i.val)))) s
  else raise .outOfBounds s

/-- GET_PIXEL (R146). -/
def execGetPixel (x y : Nat) (s : State) : Host.Outcome State Fault Refusal := command s (getPixelBody x y)

end Sys2Proof.Machine
end

