-- ==== Sys2Proof/Machine/Dispatch.lean ====
section
/-! DEFINITION. One arm per command: a direct call of its meaning. -/

namespace Sys2Proof.Machine

def exec (i : Instr) (s : State) : Host.Outcome State Fault Refusal :=
  match i with
  | .setPixel x y => Sys2Proof.Machine.execSetPixel x y s
  | .getPixel x y => Sys2Proof.Machine.execGetPixel x y s
  | .setPixels => Sys2Proof.Machine.execSetPixels s
  | .getPixels => Sys2Proof.Machine.execGetPixels s
  | .clear b => Sys2Proof.Machine.execClear b s
  | .flipH rd => Sys2Proof.Machine.execFlipH rd s
  | .flipV rd => Sys2Proof.Machine.execFlipV rd s
  | .setOrientation ori rd => Sys2Proof.Machine.execSetOrientation ori rd s
  | .getGamma => Sys2Proof.Machine.execGetGamma s
  | .setGamma => Sys2Proof.Machine.execSetGamma s
  | .resetGamma => Sys2Proof.Machine.execResetGamma s
  | .isLowLight => Sys2Proof.Machine.execIsLowLight s
  | .setLowLight b => Sys2Proof.Machine.execSetLowLight b s

end Sys2Proof.Machine
end

