-- ==== Sys2Proof/Machine/Step.lean ====
section
/-! DEFINITION. One step: the host's next move (`00_scope.md` rule R3, `60_exceptions.md` rule R258). -/

namespace Sys2Proof.Machine

/-- One step. The host's next command is taken from the port, decoded (R244) and executed; a reset runs the
construction (R270); with nothing pending the block waits (R272). -/
def step (s : State) : Host.Outcome State Fault Refusal :=
  match s.pending with
  | [] => .next s
  | .reset d :: rest => .next (construct d { s with pending := rest })
  | .command c :: rest =>
    match decode c.cmd with
    | .ok i => exec i (accept c rest s)
    | .error e => .next (illegal e (accept c rest s))

/-- `s` with the word placed as the host's next command. -/
def State.withFetchWord (s : State) (nbits w : Nat) : State := placeWord s (tableWord nbits w)

end Sys2Proof.Machine
end

