-- ==== Sys2Proof/Machine/Assembler.lean ====
section
/-! DEFINITION. The assembler syntax of the spec's test programs and traces (`30_encoding.md` rules R80, R81): one line of
text to one command and its operand bus. No step of the machine reads it. -/

namespace Sys2Proof

/-- The operand bus a line fills (R72, R80). -/
inductive BusOperand where
  | none
  | color (c : ColorBus)
  | frame (f : FrameBus)
  | gamma (t : GammaTable)
deriving DecidableEq, Repr

/-- One assembled line: the command and its operand bus. -/
structure AsmLine where
  instr : Instr
  bus : BusOperand
deriving DecidableEq, Repr

/-- The grids and tables a program names with `@name` (R80). -/
structure AsmNames where
  grids : List (List Char × FrameBus)
  tables : List (List Char × GammaTable)

/-- Column mnemonic of R75. -/
def Op.mnemonic : Op → String
  | .setPixel => "SET_PIXEL"
  | .getPixel => "GET_PIXEL"
  | .setPixels => "SET_PIXELS"
  | .getPixels => "GET_PIXELS"
  | .clear => "CLEAR"
  | .flipH => "FLIP_H"
  | .flipV => "FLIP_V"
  | .setOrientation => "SET_ORIENTATION"
  | .getGamma => "GET_GAMMA"
  | .setGamma => "SET_GAMMA"
  | .resetGamma => "RESET_GAMMA"
  | .isLowLight => "IS_LOW_LIGHT"
  | .setLowLight => "SET_LOW_LIGHT"

/-- Every opcode, in the order of R75. -/
def Op.all : List Op :=
  [.setPixel, .getPixel, .setPixels, .getPixels, .clear, .flipH, .flipV, .setOrientation, .getGamma, .setGamma,
    .resetGamma, .isLowLight, .setLowLight]

/-- The opcode a mnemonic names (R81: exactly one). -/
def Op.ofMnemonic (cs : List Char) : Option Op := Op.all.find? fun op => decide (op.mnemonic.toList = cs)

/-- A token put before the others, unless it is empty. -/
def pushToken (tok : List Char) (rest : List (List Char)) : List (List Char) :=
  if tok = [] then rest else tok.reverse :: rest

/-- The words of a line and its commas, from `acc`, the word being read (last character first), on. A `;` ends the
line's command. -/
def tokensFrom : List Char → List Char → List (List Char)
  | [], acc => pushToken acc []
  | c :: cs, acc =>
    if c = ';' then pushToken acc []
    else if c = ' ' then pushToken acc (tokensFrom cs [])
    else if c = ',' then pushToken acc ([','] :: tokensFrom cs [])
    else tokensFrom cs (c :: acc)

/-- The value of a digit of a base up to 16. -/
def digitValue (base : Nat) (c : Char) : Option Nat :=
  let v :=
    if '0' ≤ c ∧ c ≤ '9' then c.toNat - '0'.toNat
    else if 'a' ≤ c ∧ c ≤ 'f' then c.toNat - 'a'.toNat + 10
    else if 'A' ≤ c ∧ c ≤ 'F' then c.toNat - 'A'.toNat + 10
    else 16
  if v < base then some v else none

/-- The number a digit string spells, on top of `acc`. -/
def digitsFrom (base : Nat) : List Char → Nat → Option Nat
  | [], acc => some acc
  | c :: cs, acc => (digitValue base c).bind fun v => digitsFrom base cs (base * acc + v)

/-- "x and y are decimal 0..255" (R80). -/
def asmCoord (cs : List Char) : Option Nat :=
  if cs = [] then none else (digitsFrom 10 cs 0).bind fun v => if v < 256 then some v else none

/-- "`#rrggbb` is six hexadecimal digits" (R80). -/
def asmColor : List Char → Option ColorBus
  | '#' :: cs => if cs.length = 6 then (digitsFrom 16 cs 0).map (BitVec.ofNat 24) else none
  | _ => none

/-- `@name`: the value the program gives that name. -/
def asmNamed {α : Type} (names : List (List Char × α)) : List Char → Option α
  | '@' :: cs => names.lookup cs
  | _ => none

/-- A boolean operand spelled by one of two words. -/
def asmWord (yes no : String) (cs : List Char) : Option Bool :=
  if cs = yes.toList then some true else if cs = no.toList then some false else none

/-- `redraw` or `noredraw` (R80). -/
def asmRedraw (cs : List Char) : Option Bool := asmWord "redraw" "noredraw" cs

/-- `0|90|180|270` (R80). -/
def asmOrientation (cs : List Char) : Option Orientation :=
  if cs = ['0'] then some .o0
  else if cs = ['9', '0'] then some .o90
  else if cs = ['1', '8', '0'] then some .o180
  else if cs = ['2', '7', '0'] then some .o270
  else none

/-- The line of an opcode and its operand tokens (R80). -/
def Op.asmOperands (names : AsmNames) (op : Op) (toks : List (List Char)) : Option AsmLine :=
  match op, toks with
  | .setPixel, [x, [','], y, [','], c] =>
    (asmCoord x).bind fun x => (asmCoord y).bind fun y => (asmColor c).map fun c => ⟨.setPixel x y, .color c⟩
  | .getPixel, [x, [','], y] =>
    (asmCoord x).bind fun x => (asmCoord y).map fun y => ⟨.getPixel x y, .none⟩
  | .setPixels, [g] => (asmNamed names.grids g).map fun g => ⟨.setPixels, .frame g⟩
  | .getPixels, [] => some ⟨.getPixels, .none⟩
  | .clear, [] => some ⟨.clear false, .none⟩
  | .clear, [c] => (asmColor c).map fun c => ⟨.clear true, .color c⟩
  | .flipH, [rd] => (asmRedraw rd).map fun rd => ⟨.flipH rd, .none⟩
  | .flipV, [rd] => (asmRedraw rd).map fun rd => ⟨.flipV rd, .none⟩
  | .setOrientation, [o, [','], rd] =>
    (asmOrientation o).bind fun o => (asmRedraw rd).map fun rd => ⟨.setOrientation o rd, .none⟩
  | .getGamma, [] => some ⟨.getGamma, .none⟩
  | .setGamma, [t] => (asmNamed names.tables t).map fun t => ⟨.setGamma, .gamma t⟩
  | .resetGamma, [] => some ⟨.resetGamma, .none⟩
  | .isLowLight, [] => some ⟨.isLowLight, .none⟩
  | .setLowLight, [b] => (asmWord "on" "off" b).map fun b => ⟨.setLowLight b, .none⟩
  | _, _ => none

/-- The assembler (R80): one line to one command; none for a line the syntax does not give. -/
def assembleLine (names : AsmNames) (line : String) : Option AsmLine :=
  match tokensFrom line.toList [] with
  | [] => none
  | mn :: toks => (Op.ofMnemonic mn).bind fun op => op.asmOperands names toks

/-- The inputs of the step that issues a line: its command word and its bus, over the other inputs `c` (R80, R82). -/
def AsmLine.input (l : AsmLine) (c : StepInput) : StepInput :=
  let c := { c with cmd := encode l.instr }
  match l.bus with
  | .none => c
  | .color v => { c with colorIn := v }
  | .frame f => { c with frameIn := f }
  | .gamma t => { c with gammaIn := t }

end Sys2Proof
end

