-- ==== Sys2Proof/Safety.lean ====
section
/-! DEFINITION. The notions claims are stated in: the invariants of a run, the events of each kind, which commands draw
or call the device, the status a command ends with, and the coordinate tables of the mapper. -/

namespace Sys2Proof.Machine

/-- The data invariant: every frame is in canonical form and the parameters obey R8. -/
abbrev Inv (s : State) : Prop :=
  s.frame.wf = true ∧ s.panelFrame.wf = true ∧ s.params.wf = true ∧
    ∀ buf, Event.frameWrite buf ∈ s.events → buf.wf = true

/-- The device shows the frame as the orientation places it (R63). -/
abbrev Coherent (s : State) : Prop := s.panelFrame = rotate s.frame s.orientation

/-- The buffer of a FrameWrite event (R29). -/
def Event.buffer : Event → Option Memory
  | .frameWrite buf => some buf
  | .ctlCall _ _ _ _ => none

/-- The buffers of the log's FrameWrites, oldest first. -/
def frameWrites (l : List Event) : List Memory := l.filterMap Event.buffer

/-- A CtlCall event (R29). -/
def Event.isCtl : Event → Bool
  | .frameWrite _ => false
  | .ctlCall _ _ _ _ => true

/-- The log's control calls, oldest first. -/
def ctlCalls (l : List Event) : List Event := l.filter Event.isCtl

/-- PANEL_FRAME is the last frame the log shows as sent (R30). -/
abbrev PanelIsLastSent (s : State) : Prop :=
  ∀ buf, (frameWrites s.events).getLast? = some buf → s.panelFrame = buf

/-- The five commands of the gamma sub-block (R5, R227). -/
def isGamma : Instr → Bool
  | .setPixel _ _ => false
  | .getPixel _ _ => false
  | .setPixels => false
  | .getPixels => false
  | .clear _ => false
  | .flipH _ => false
  | .flipV _ => false
  | .setOrientation _ _ => false
  | .getGamma => true
  | .setGamma => true
  | .resetGamma => true
  | .isLowLight => true
  | .setLowLight _ => true

/-- The places DRAW runs in (R162), in READY. -/
def drawsFrame : Instr → Bool
  | .setPixel x y => decide (x ≤ 7 ∧ y ≤ 7)
  | .getPixel _ _ => false
  | .setPixels => true
  | .getPixels => false
  | .clear _ => true
  | .flipH rd => rd
  | .flipV rd => rd
  | .setOrientation _ rd => rd
  | .getGamma => false
  | .setGamma => false
  | .resetGamma => false
  | .isLowLight => false
  | .setLowLight _ => false

/-- The commands that make their control call, in READY (R54): a rejected SET_GAMMA makes none. -/
def callsDevice (i : Instr) (gammaIn : GammaTable) : Bool :=
  match i with
  | .setPixel _ _ => false
  | .getPixel _ _ => false
  | .setPixels => false
  | .getPixels => false
  | .clear _ => false
  | .flipH _ => false
  | .flipV _ => false
  | .setOrientation _ _ => false
  | .getGamma => true
  | .setGamma => gammaLegal gammaIn
  | .resetGamma => true
  | .isLowLight => true
  | .setLowLight _ => true

/-- The commands that read COLOR_IN (R72). -/
def readsColor : Instr → Bool
  | .setPixel _ _ => true
  | .clear b => b
  | _ => false

/-- The commands that read FRAME_IN (R72). -/
def readsFrame : Instr → Bool
  | .setPixels => true
  | _ => false

/-- The commands that read GAMMA_IN (R72). -/
def readsGamma : Instr → Bool
  | .setGamma => true
  | _ => false

/-- The operand error of a command (R142, R210, R243). -/
def operandError (i : Instr) (gammaIn : GammaTable) : Option Err :=
  match i with
  | .setPixel x y => if x > 7 ∨ y > 7 then some .outOfBounds else none
  | .getPixel x y => if x > 7 ∨ y > 7 then some .outOfBounds else none
  | .setGamma => if ∃ k : Fin 32, gammaIn[k].toNat > 31 then some .invalidGamma else none
  | _ => none

/-- The error a legal command ends with, none for OK: the first of the FAILED status, the operand error, and
DEVICE_ERROR of a failed and checked control call (R243, R246). -/
def expectedError (i : Instr) (s : State) : Option Err :=
  match s.lifecycle with
  | .failed .missingDevice => some .missingDevice
  | .failed .deviceError => some .deviceError
  | .ready =>
    match operandError i s.port.gammaIn with
    | some e => some e
    | none =>
      if isGamma i = true ∧ s.port.ctlResult = .fail ∧ s.params.checkControlResult = true then some .deviceError
      else none

/-- M_o (R123): the physical column and row of a logical coordinate. -/
def mapCoord (o : Orientation) (p : Fin 8 × Fin 8) : Fin 8 × Fin 8 :=
  match o with
  | .o0 => p
  | .o90 => (7 - p.2, p.1)
  | .o180 => (7 - p.1, 7 - p.2)
  | .o270 => (p.2, 7 - p.1)

/-- The GET_PIXEL coordinate that reads back a SET_PIXEL (R148). -/
def readBack (o : Orientation) (p : Fin 8 × Fin 8) : Fin 8 × Fin 8 :=
  match o with
  | .o0 => p
  | .o90 => (p.2, 7 - p.1)
  | .o180 => (7 - p.1, 7 - p.2)
  | .o270 => (7 - p.2, p.1)

/-- Commands executed one after another, each with its own buses and draws. -/
def execSeq : List (Instr × StepInput) → State → Host.Outcome State Fault Refusal
  | [], s => .next s
  | (i, c) :: rest, s =>
    match exec i { s with port := c } with
    | .next t => execSeq rest t
    | .fault r => .fault r
    | .refused r => .refused r

/-- The grid two states agree to return: a GET_PIXELS at `s` answers `r`. -/
def getPixelsAnswer (s : State) (r : Response) : Prop := ∃ v, exec .getPixels s = .next v ∧ v.response = r

/-- R176 for one of the two flips: its command with either RD, and its grid permutation. -/
def FlipInvolution (flip : Bool → Instr) (perm : Grid → Grid) : Prop :=
  (∀ g, perm (perm g) = g) ∧
  ∀ s : State, s.lifecycle = .ready →
    (∃ t, exec (flip true) s = .next t ∧
      (∀ rd, ∃ u, exec (flip rd) t = .next u ∧ getPixelsAnswer s u.response) ∧
      ∃ u, exec (flip true) t = .next u ∧
        ∀ i, i < 64 → Memory.cell u.frame i = pack (unpack (Memory.cell s.frame i))) ∧
    ∃ t, exec (flip false) s = .next t ∧
      ∀ rd, ∃ u, exec (flip rd) t = .next u ∧ u.response = t.response ∧
        t.response = .ok (.frame (busOfGrid (perm (gridOfFrame s.frame))))

end Sys2Proof.Machine
end

