-- ==== Sys2Proof/Certificates/Slice0/Obligations.lean ====
section
/-! DEFINITION. The statements for the provers, from the spec's numbered rules. -/

open Sys2Proof Sys2Proof.Machine

/-! ## The command word -/

/-- R82, R75: the worked encodings, and one word of every other row, decode to their commands. -/
def Obligations.SampleWordsDecode : Prop :=
  decode 0x10000000 = .ok (.setPixel 0 0) ∧ decode 0x10305000 = .ok (.setPixel 3 5) ∧
  decode 0x10800000 = .ok (.setPixel 8 0) ∧ decode 0x20007000 = .ok (.getPixel 0 7) ∧
  decode 0x20303000 = .ok (.getPixel 3 3) ∧ decode 0x30000000 = .ok .setPixels ∧
  decode 0x40000000 = .ok .getPixels ∧ decode 0x50000000 = .ok (.clear false) ∧
  decode 0x50000100 = .ok (.clear true) ∧ decode 0x60000200 = .ok (.flipH true) ∧
  decode 0x70000000 = .ok (.flipV false) ∧ decode 0x80000000 = .ok (.setOrientation .o0 false) ∧
  decode 0x80000400 = .ok (.setOrientation .o90 false) ∧ decode 0x80000800 = .ok (.setOrientation .o180 false) ∧
  decode 0x80000E00 = .ok (.setOrientation .o270 true) ∧ decode 0x90000000 = .ok .getGamma ∧
  decode 0xA0000000 = .ok .setGamma ∧ decode 0xB0000000 = .ok .resetGamma ∧
  decode 0xC0000000 = .ok .isLowLight ∧ decode 0xD0000100 = .ok (.setLowLight true)

/-- R70, R74, R75: every well-formed command survives its encoding, with every operand at every value. -/
def Obligations.DecodeOfEncode : Prop :=
  ∀ i : Instr, i.wf = true → decode (encode i) = .ok i

/-- R70, R74, R77: a word that decodes is the one encoding of its command, and the command is well formed. -/
def Obligations.EncodeOfDecode : Prop :=
  ∀ (w : CmdWord) (i : Instr), decode w = .ok i → i.wf = true ∧ encode i = w

/-- R75, R77: the decoder selects exactly the row whose `(W & mask) == match` holds, at most one row matches, and it
rejects exactly the words no row matches. -/
def Obligations.DecodeSelectsMatchingRow : Prop :=
  (∀ (w : CmdWord) (op : Op), w &&& op.mask = op.matchWord ↔ ∃ i, decode w = .ok i ∧ i.op = op) ∧
  (∀ (w : CmdWord) (op op' : Op), w &&& op.mask = op.matchWord → w &&& op'.mask = op'.matchWord → op = op') ∧
  ∀ w : CmdWord, (∃ e, decode w = .error e) ↔ ∀ op : Op, w &&& op.mask ≠ op.matchWord

/-- R76, R77, R244: a word that matches no row, as every word with OP 0x0, 0xE or 0xF does and every word with a legal
OP and a bit set under its row's mask outside OP, ends with ILLEGAL_COMMAND; beyond taking the command from the port,
nothing else changes and no event is emitted. -/
def Obligations.UnmatchedWordIsIllegal : Prop :=
  (∀ (s : State) (c : StepInput) (rest : List HostInput), s.pending = .command c :: rest →
    (∀ op : Op, c.cmd &&& op.mask ≠ op.matchWord) →
    step s = .next { s with port := c, pending := rest, response := .error .illegalCommand }) ∧
  (∀ w : CmdWord, w.extractLsb' 28 4 = 0x0 ∨ w.extractLsb' 28 4 = 0xE ∨ w.extractLsb' 28 4 = 0xF →
    ∀ op : Op, w &&& op.mask ≠ op.matchWord) ∧
  ∀ (w : CmdWord) (op : Op), w.extractLsb' 28 4 = op.code → w &&& op.mask &&& 0x0FFFFFFF ≠ 0 →
    ∀ op' : Op, w &&& op'.mask ≠ op'.matchWord

/-- R80, R81, R82 (blanks, commas, comments and names as log 24 says): a line of every form of R80 assembles to its
command and bus; each mnemonic names exactly one opcode; and every line the assembler accepts issues a word that decodes
to its command, with the line's bus filled and the others left alone. -/
def Obligations.AssembledLinesDecode : Prop :=
  (∀ names : AsmNames,
    assembleLine names "SET_PIXEL 3, 5, #ff0000" = some ⟨.setPixel 3 5, .color 0xFF0000⟩ ∧
    assembleLine names "GET_PIXEL 0, 7" = some ⟨.getPixel 0 7, .none⟩ ∧
    assembleLine names "CLEAR" = some ⟨.clear false, .none⟩ ∧
    assembleLine names "CLEAR #ff0000" = some ⟨.clear true, .color 0xFF0000⟩ ∧
    assembleLine names "GET_PIXELS" = some ⟨.getPixels, .none⟩ ∧
    assembleLine names "FLIP_H redraw" = some ⟨.flipH true, .none⟩ ∧
    assembleLine names "FLIP_H noredraw" = some ⟨.flipH false, .none⟩ ∧
    assembleLine names "FLIP_V redraw" = some ⟨.flipV true, .none⟩ ∧
    assembleLine names "FLIP_V noredraw" = some ⟨.flipV false, .none⟩ ∧
    assembleLine names "SET_ORIENTATION 0, redraw" = some ⟨.setOrientation .o0 true, .none⟩ ∧
    assembleLine names "SET_ORIENTATION 90, noredraw" = some ⟨.setOrientation .o90 false, .none⟩ ∧
    assembleLine names "SET_ORIENTATION 180, noredraw" = some ⟨.setOrientation .o180 false, .none⟩ ∧
    assembleLine names "SET_ORIENTATION 270, redraw" = some ⟨.setOrientation .o270 true, .none⟩ ∧
    assembleLine names "GET_GAMMA" = some ⟨.getGamma, .none⟩ ∧
    assembleLine names "RESET_GAMMA" = some ⟨.resetGamma, .none⟩ ∧
    assembleLine names "IS_LOW_LIGHT" = some ⟨.isLowLight, .none⟩ ∧
    assembleLine names "SET_LOW_LIGHT on" = some ⟨.setLowLight true, .none⟩ ∧
    assembleLine names "SET_LOW_LIGHT off" = some ⟨.setLowLight false, .none⟩ ∧
    (∀ f : FrameBus, names.grids.lookup ['g', 'r', 'i', 'd'] = some f →
      assembleLine names "SET_PIXELS @grid" = some ⟨.setPixels, .frame f⟩) ∧
    ∀ t : GammaTable, names.tables.lookup ['t', 'a', 'b', 'l', 'e'] = some t →
      assembleLine names "SET_GAMMA @table" = some ⟨.setGamma, .gamma t⟩) ∧
  (∀ (cs : List Char) (op : Op), Op.ofMnemonic cs = some op ↔ cs = op.mnemonic.toList) ∧
  ∀ (names : AsmNames) (line : String) (l : AsmLine) (c : StepInput), assembleLine names line = some l →
    decode (l.input c).cmd = .ok l.instr ∧ l.input c = (match l.bus with
      | .none => { c with cmd := encode l.instr }
      | .color v => { c with cmd := encode l.instr, colorIn := v }
      | .frame f => { c with cmd := encode l.instr, frameIn := f }
      | .gamma t => { c with cmd := encode l.instr, gammaIn := t })

/-! ## The step, the reset and the life cycle -/

/-- A step runs the decoded command: the input leaves the host's list, its buses are on the port, and the step is `exec`
of the command there. -/
def Obligations.StepRunsDecodedCommand : Prop :=
  ∀ (s : State) (c : StepInput) (rest : List HostInput) (i : Instr),
    s.pending = .command c :: rest → decode c.cmd = .ok i →
    i.wf = true ∧ step s = exec i { s with port := c, pending := rest }

/-- R272 (the idle step is the model's choice, log 1): with nothing pending the block waits and nothing changes. -/
def Obligations.IdleStepWaits : Prop :=
  ∀ s : State, s.pending = [] → step s = .next s

/-- R270, R275: a reset empties the log, sets LIFECYCLE by the discovery draw, loads INIT_FRAME and INIT_ORIENTATION,
and leaves the device's GAMMA_LUT and PANEL_FRAME alone. -/
def Obligations.ResetRunsConstruction : Prop :=
  ∀ (s : State) (d : Discovery) (rest : List HostInput), s.pending = .reset d :: rest →
    ∃ t, step s = .next t ∧ t.events = [] ∧
      t.lifecycle = (match d with
        | .notFound => .failed .missingDevice
        | .error => .failed .deviceError
        | .found => .ready) ∧
      t.frame = s.params.initFrame ∧ t.orientation = s.params.initOrientation ∧
      t.gammaLut = s.gammaLut ∧ t.panelFrame = s.panelFrame

/-- R258, R240 (the response port holding the construction's answer is the model's reading, log 11): what a reset
returns to the host, at a reset step and in the state after reset; a reset step keeps the model's own fields (log 21).
-/
def Obligations.ResetAnswersHost : Prop :=
  (∀ (s : State) (d : Discovery) (rest : List HostInput), s.pending = .reset d :: rest →
    ∃ t, step s = .next t ∧ t.response = (match d with
      | .notFound => .error .missingDevice
      | .error => .error .deviceError
      | .found => .ok .none) ∧ t.params = s.params ∧ t.port = s.port ∧ t.pending = rest) ∧
  State.reset.response = (match State.reset.lifecycle with
    | .failed .missingDevice => .error .missingDevice
    | .failed .deviceError => .error .deviceError
    | .ready => .ok .none)

/-- R8, R273, R274, R276, with the open parameters the opaque constants of logs 4 to 10 and 13 (the model's choice, with
no value): the state after reset. -/
def Obligations.ResetStateValues : Prop :=
  State.reset.events = [] ∧ (∀ k, k < 128 → Memory.byte State.reset.frame k = Config.initFrame k) ∧
  State.reset.orientation = Config.initOrientation ∧ State.reset.gammaLut = Config.initGamma ∧
  State.reset.lifecycle = (match Config.discover Config.deviceIdString with
    | .notFound => .failed .missingDevice
    | .error => .failed .deviceError
    | .found => .ready) ∧
  (∀ k, k < 128 → Memory.byte State.reset.panelFrame k = Config.initPanel k) ∧
  State.reset.params.initFrame = State.reset.frame ∧ State.reset.params.initOrientation = Config.initOrientation ∧
  State.reset.params.defaultGamma = Config.presets.defaultGamma ∧
  State.reset.params.lowLightTable = Config.presets.lowLightTable ∧
  State.reset.params.checkControlResult = Config.checkControlResult ∧
  State.reset.params.getPixelAddressing = Config.getPixelAddressing

/-- R8, R50: the data invariant holds after reset. -/
def Obligations.ResetMeetsInvariant : Prop := Inv State.reset

/-- R8, R24, R50: every step keeps every frame in canonical form and the parameters within R8, from every state. -/
def Obligations.StepKeepsInvariant : Prop :=
  ∀ s t : State, Inv s → step s = .next t → Inv t

/-- From every state a step answers a next state. That nothing faults and nothing is refused is the model's reading of
R241 and R248 (log 23, DEDUCED); that every word and every reset gives an outcome is R59 and R77. -/
def Obligations.StepAlwaysAnswers : Prop :=
  ∀ s : State, ∃ t, step s = .next t

/-- R245: in FAILED(s) every legal command ends with status s and does nothing else. -/
def Obligations.FailedLifecycleAnswersItsStatus : Prop :=
  ∀ (i : Instr) (s : State),
    (s.lifecycle = .failed .missingDevice → exec i s = .next { s with response := .error .missingDevice }) ∧
    (s.lifecycle = .failed .deviceError → exec i s = .next { s with response := .error .deviceError })

/-- R249, R271, and the model's own fields (logs 1, 2, 4): no command changes LIFECYCLE, the parameters, the port or
what the host will do. -/
def Obligations.CommandsKeepLifecycleAndInputs : Prop :=
  ∀ (i : Instr) (s : State), ∃ t, exec i s = .next t ∧
    t.lifecycle = s.lifecycle ∧ t.params = s.params ∧ t.port = s.port ∧ t.pending = s.pending

/-- R240: the status codes; 6 and 7 are never produced. -/
def Obligations.StatusCodes : Prop :=
  (∀ p : Payload, Response.status (.ok p) = 0) ∧
  Response.status (.error .outOfBounds) = 1 ∧ Response.status (.error .invalidGamma) = 2 ∧
  Response.status (.error .missingDevice) = 3 ∧ Response.status (.error .deviceError) = 4 ∧
  Response.status (.error .illegalCommand) = 5 ∧
  ∀ r : Response, Response.status r ≠ 6 ∧ Response.status r ≠ 7

/-- R243 (the spec's own inference, marked `derived` there), R246: the error of a legal command is the first of the
FAILED status, the operand error and DEVICE_ERROR; with none of them the command ends OK. -/
def Obligations.ErrorPrecedence : Prop :=
  ∀ (i : Instr) (s : State), ∃ t, exec i s = .next t ∧ ∀ e, t.response = .error e ↔ expectedError i s = some e

/-- R247 (the spec's own inference, marked `derived` there): what an error
leaves. (a) every status but a control call's DEVICE_ERROR leaves every component unchanged;
(b) DEVICE_ERROR from a control call leaves the call's event, and GAMMA_LUT as R202 says; (c) none changes RAW_FRAME or
ORIENTATION. -/
def Obligations.ErrorEffects : Prop :=
  (∀ (i : Instr) (s t : State) (e : Err), exec i s = .next t → t.response = .error e →
    t.frame = s.frame ∧ t.orientation = s.orientation ∧
    (s.lifecycle ≠ .ready ∨ e ≠ .deviceError → t = { s with response := .error e }) ∧
    (s.lifecycle = .ready → e = .deviceError →
      ∃ (req : CtlCode) (arg : CtlArg) (data : Option GammaTable),
        t = { s with
          events := s.events ++ [.ctlCall req arg .fail data]
          gammaLut := if req = .getGamma then s.gammaLut else s.port.ctlDraw
          response := .error .deviceError })) ∧
  ∀ (s : State) (c : StepInput) (rest : List HostInput) (e : DecodeError),
    s.pending = .command c :: rest → decode c.cmd = .error e →
    step s = .next { s with port := c, pending := rest, response := .error .illegalCommand }

/-! ## The codec -/

/-- R100, R101(a), (b) (R101 is the spec's own inference, marked `derived` there): PACK keeps the top bits of each
channel and reaches every word. -/
def Obligations.PackTruncatesChannels : Prop :=
  (∀ p : Pixel, (pack p).extractLsb' 11 5 = p.r.extractLsb' 3 5 ∧
    (pack p).extractLsb' 5 6 = p.g.extractLsb' 2 6 ∧ (pack p).extractLsb' 0 5 = p.b.extractLsb' 3 5) ∧
  ∀ w : Word, pack
    { r := (w.extractLsb' 11 5).zeroExtend 8 <<< 3
      g := (w.extractLsb' 5 6).zeroExtend 8 <<< 2
      b := (w.extractLsb' 0 5).zeroExtend 8 <<< 3 } = w

/-- R103 (the spec's own inference, marked `derived` there): the closed form of UNPACK; w[7] and w[6] never reach the
output, w[5] and w[10] are merged. -/
def Obligations.UnpackClosedForm : Prop :=
  ∀ w : Word,
    (unpack w).r.toNat = 8 * (w.extractLsb' 11 5).toNat ∧
    (unpack w).b.toNat = 8 * (w.extractLsb' 0 5).toNat ∧
    (unpack w).g.toNat = 128 * (w.getLsbD 5 || w.getLsbD 10).toNat + 64 * (w.getLsbD 9).toNat
      + 32 * (w.getLsbD 8).toNat

/-- R104 (part (b) is the spec's own inference, marked `derived` there): reading back is stable but not the identity. -/
def Obligations.ReadBackIsStable : Prop :=
  (∀ p : Pixel, unpack (pack (unpack (pack p))) = unpack (pack p)) ∧
  (∀ w : Word, unpack (pack (unpack w)) = unpack w) ∧
  unpack (pack { r := 255, g := 255, b := 255 }) = { r := 248, g := 224, b := 248 }

/-- R105, R284 (the spec's own inferences, marked `derived` there): re-packing loses exactly w[7:5], merged into
w[10], and a second time loses nothing more. -/
def Obligations.RepackLoss : Prop :=
  (∀ w : Word, pack (unpack w) = w ↔ w.extractLsb' 5 3 = 0) ∧
  (∀ w : Word, pack (unpack w) =
    (w &&& 0xFF1F) ||| (if w.getLsbD 5 then 0x0400 else 0)) ∧
  ∀ w : Word, pack (unpack (pack (unpack w))) = pack (unpack w)

/-- R106 (the spec's own inference, marked `derived` there): the colours that can be read back are exactly those with
r and b multiples of 8 and g a multiple of 32. -/
def Obligations.ReadableColours : Prop :=
  ∀ p : Pixel, (∃ w, unpack w = p) ↔ p.r.toNat % 8 = 0 ∧ p.g.toNat % 32 = 0 ∧ p.b.toNat % 8 = 0

/-! ## The mapper and DRAW -/

/-- R122: PHYS_INDEX is a bijection onto the 64 cells at every orientation. -/
def Obligations.PhysIndexBijective : Prop :=
  ∀ o : Orientation, Function.Bijective fun p : Fin 8 × Fin 8 => physIndex p.1 p.2 o

/-- R123, R124 (the spec's own inferences, marked `derived` there): PHYS_INDEX is `c + 8*r` of M_o, the inverses are
the tables of R123, and the four maps form the cyclic group of a quarter turn. -/
def Obligations.MapperGroup : Prop :=
  (∀ (o : Orientation) (p : Fin 8 × Fin 8),
    (physIndex p.1 p.2 o).val = (mapCoord o p).1.val + 8 * (mapCoord o p).2.val) ∧
  (∀ x y : Fin 8, ∀ i : Nat,
    ((physIndex x y .o0).val = i → (x.val, y.val) = (i % 8, i / 8)) ∧
    ((physIndex x y .o90).val = i → (x.val, y.val) = (i / 8, 7 - i % 8)) ∧
    ((physIndex x y .o180).val = i → (x.val, y.val) = ((63 - i) % 8, (63 - i) / 8)) ∧
    ((physIndex x y .o270).val = i → (x.val, y.val) = (7 - i / 8, i % 8))) ∧
  (∀ p, mapCoord .o90 (mapCoord .o90 p) = mapCoord .o180 p) ∧
  (∀ p, mapCoord .o90 (mapCoord .o90 (mapCoord .o90 p)) = mapCoord .o270 p) ∧
  (∀ p, mapCoord .o90 (mapCoord .o270 p) = p) ∧ (∀ p, mapCoord .o270 (mapCoord .o90 p) = p) ∧
  (∀ p, mapCoord .o180 (mapCoord .o180 p) = p) ∧ (∀ p, mapCoord .o0 p = p) ∧ mapCoord .o90 (0, 0) = (7, 0)

/-- R161 (the spec's own inference, marked `derived` there): the defining equation of ROTATE, and that it fixes a
uniform frame. -/
def Obligations.RotatePlacesCells : Prop :=
  (∀ (m : Memory) (o : Orientation) (x y : Fin 8),
    Memory.cell (rotate m o) (physIndex x y o).val = Memory.cell m (x.val + 8 * y.val)) ∧
  ∀ (m : Memory) (o : Orientation) (w : Word), (∀ i, i < 64 → Memory.cell m i = w) →
    ∀ k, k < 128 → Memory.byte (rotate m o) k = Memory.byte m k

/-- R51, R52, R57: the byte order, in every frame: a cell is its low byte then its high byte, and writing it touches no
other byte. -/
def Obligations.CellsAreLittleEndian : Prop :=
  (∀ (m : Memory) (i : Nat), Memory.cell m i = Memory.byte m (2 * i + 1) ++ Memory.byte m (2 * i)) ∧
  ∀ (m : Memory) (i : Nat) (w : Word),
    Memory.byte (Memory.setCell m i w) (2 * i) = w.extractLsb' 0 8 ∧
    Memory.byte (Memory.setCell m i w) (2 * i + 1) = w.extractLsb' 8 8 ∧
    ∀ k, k ≠ 2 * i → k ≠ 2 * i + 1 → Memory.byte (Memory.setCell m i w) k = Memory.byte m k

/-- R162: DRAW runs in exactly the places of R162, once, with the frame and orientation the command leaves; it runs in
no failed life cycle, for no illegal word and in no reset. -/
def Obligations.DrawRunsExactlyWhereStated : Prop :=
  (∀ (i : Instr) (s : State), s.lifecycle = .ready → ∃ t, exec i s = .next t ∧
    (drawsFrame i = true → t.panelFrame = rotate t.frame t.orientation ∧
      t.events = s.events ++ [.frameWrite (rotate t.frame t.orientation)]) ∧
    (drawsFrame i = false → t.panelFrame = s.panelFrame ∧ frameWrites t.events = frameWrites s.events)) ∧
  (∀ (i : Instr) (s : State), s.lifecycle ≠ .ready → ∃ t, exec i s = .next t ∧
    t.panelFrame = s.panelFrame ∧ t.events = s.events) ∧
  (∀ (s : State) (c : StepInput) (rest : List HostInput) (e : DecodeError), s.pending = .command c :: rest →
    decode c.cmd = .error e → ∃ t, step s = .next t ∧ t.panelFrame = s.panelFrame ∧ t.events = s.events) ∧
  ∀ (s : State) (d : Discovery) (rest : List HostInput), s.pending = .reset d :: rest →
    ∃ t, step s = .next t ∧ t.panelFrame = s.panelFrame ∧ t.events = []

/-- R54 (the spec's own inference, marked `derived` there), R59, R64: a command appends at most one event, never
rewrites the log, and makes a control call exactly when it is a gamma command that is not rejected. -/
def Obligations.EventsPerCommand : Prop :=
  ∀ (i : Instr) (s : State), s.lifecycle = .ready → ∃ t, exec i s = .next t ∧
    (∃ l, t.events = s.events ++ l ∧ l.length ≤ 1) ∧
    (frameWrites t.events).length = (frameWrites s.events).length + (drawsFrame i).toNat ∧
    (ctlCalls t.events).length = (ctlCalls s.events).length + (callsDevice i s.port.gammaIn).toNat

/-- R63 (the spec's own inference, marked `derived` there): once the device agrees with RAW_FRAME and ORIENTATION it
goes on agreeing after every step but a SET_ORIENTATION without redraw and a reset; and every command that draws makes
them agree, whatever held before. -/
def Obligations.PanelCoherenceKept : Prop :=
  (∀ s t : State, step s = .next t → Coherent s →
    Coherent t ∨
    (∃ c rest o, s.pending = .command c :: rest ∧ decode c.cmd = .ok (.setOrientation o false)) ∨
    ∃ d rest, s.pending = .reset d :: rest) ∧
  ∀ (i : Instr) (s : State), s.lifecycle = .ready → drawsFrame i = true → ∃ t, exec i s = .next t ∧ Coherent t

/-- R30: PANEL_FRAME is always the last frame the log shows as sent: it is so after reset, and every step keeps it. -/
def Obligations.PanelFrameIsLastSent : Prop :=
  PanelIsLastSent State.reset ∧ ∀ s t : State, PanelIsLastSent s → step s = .next t → PanelIsLastSent t

/-- R30, R149, R29: nothing in the block reads PANEL_FRAME or EVENT_LOG. -/
def Obligations.PanelAndLogAreNotRead : Prop :=
  ∀ (i : Instr) (s : State) (panel : Memory) (log : List Event), ∃ t u,
    exec i s = .next t ∧ exec i { s with panelFrame := panel, events := log } = .next u ∧
    u.response = t.response ∧ u.frame = t.frame ∧ u.orientation = t.orientation ∧ u.gammaLut = t.gammaLut ∧
    u.lifecycle = t.lifecycle ∧ ∃ l, t.events = s.events ++ l ∧ u.events = log ++ l

/-! ## The single-pixel commands -/

/-- R141, R142: SET_PIXEL. -/
def Obligations.SetPixelStoresAndDraws : Prop :=
  ∀ (x y : Nat) (s : State), s.lifecycle = .ready →
    encode (.setPixel x y) &&& 0xF0000FFF = 0x10000000 ∧
    (encode (.setPixel x y)).extractLsb' 20 8 = BitVec.ofNat 8 x ∧
    (encode (.setPixel x y)).extractLsb' 12 8 = BitVec.ofNat 8 y ∧
    (x ≤ 7 → y ≤ 7 → ∃ m : Memory,
      exec (.setPixel x y) s = .next { s with
        frame := m
        panelFrame := rotate m s.orientation
        events := s.events ++ [.frameWrite (rotate m s.orientation)]
        response := .ok .none } ∧
      Memory.cell m (x + 8 * y) = pack
        { r := s.port.colorIn.extractLsb' 16 8
          g := s.port.colorIn.extractLsb' 8 8
          b := s.port.colorIn.extractLsb' 0 8 } ∧
      ∀ k, k ≠ 2 * (x + 8 * y) → k ≠ 2 * (x + 8 * y) + 1 → Memory.byte m k = Memory.byte s.frame k) ∧
    (x > 7 ∨ y > 7 → exec (.setPixel x y) s = .next { s with response := .error .outOfBounds })

/-- R146, R147: GET_PIXEL, at both values of GETPIXEL_ADDRESSING. -/
def Obligations.GetPixelReadsOneCell : Prop :=
  ∀ (x y : Nat) (s : State), s.lifecycle = .ready →
    encode (.getPixel x y) &&& 0xF0000FFF = 0x20000000 ∧
    (encode (.getPixel x y)).extractLsb' 20 8 = BitVec.ofNat 8 x ∧
    (encode (.getPixel x y)).extractLsb' 12 8 = BitVec.ofNat 8 y ∧
    (∀ (hx : x < 8) (hy : y < 8), s.params.getPixelAddressing = .mapped →
      exec (.getPixel x y) s = .next { s with
        response := .ok (.color (busOfPixel (unpack
          (Memory.cell s.frame (physIndex ⟨x, hx⟩ ⟨y, hy⟩ s.orientation).val)))) }) ∧
    (x < 8 → y < 8 → s.params.getPixelAddressing = .logical →
      exec (.getPixel x y) s = .next { s with
        response := .ok (.color (busOfPixel (unpack (Memory.cell s.frame (x + 8 * y))))) }) ∧
    (x > 7 ∨ y > 7 → exec (.getPixel x y) s = .next { s with response := .error .outOfBounds })

/-- R148 (the spec's own inference, marked `derived` there): after SET_PIXEL x', y', GET_PIXEL reads the colour back
exactly at the coordinate of the table. -/
def Obligations.WriteThenReadLaw : Prop :=
  ∀ (s : State) (p q : Fin 8 × Fin 8) (c : StepInput), s.lifecycle = .ready →
    s.params.getPixelAddressing = .mapped → ∃ t u,
      exec (.setPixel p.1.val p.2.val) s = .next t ∧
      exec (.getPixel q.1.val q.2.val) { t with port := c } = .next u ∧
      (q = readBack s.orientation p ↔ mapCoord s.orientation q = p) ∧
      (q = readBack s.orientation p →
        u.response = .ok (.color (busOfPixel (unpack (pack (pixelOfBus s.port.colorIn)))))) ∧
      (q ≠ readBack s.orientation p → ∃ i : Fin 64, i.val ≠ p.1.val + 8 * p.2.val ∧
        u.response = .ok (.color (busOfPixel (unpack (Memory.cell s.frame i.val)))))

/-- R168 (the spec's own inference, marked `derived` there): GET_PIXEL(x, y) is element `c + 8*r` of GET_PIXELS, with
(c, r) = M_o(x, y). -/
def Obligations.GetPixelAgainstGetPixels : Prop :=
  ∀ (s : State) (p : Fin 8 × Fin 8), s.lifecycle = .ready → s.params.getPixelAddressing = .mapped →
    ∃ (t u : State) (f : FrameBus), exec .getPixels s = .next t ∧ t.response = .ok (.frame f) ∧
      exec (.getPixel p.1.val p.2.val) s = .next u ∧
      ∃ h : (mapCoord s.orientation p).1.val + 8 * (mapCoord s.orientation p).2.val < 64,
        u.response = .ok (.color f[(mapCoord s.orientation p).1.val + 8 * (mapCoord s.orientation p).2.val])

/-! ## The bulk commands -/

/-- R164: SET_PIXELS. -/
def Obligations.SetPixelsReplacesFrame : Prop :=
  ∀ s : State, s.lifecycle = .ready →
    encode .setPixels &&& 0xFFFFFFFF = 0x30000000 ∧
    ∃ m : Memory,
      exec .setPixels s = .next { s with
        frame := m
        panelFrame := rotate m s.orientation
        events := s.events ++ [.frameWrite (rotate m s.orientation)]
        response := .ok .none } ∧
      ∀ (i : Nat) (h : i < 64), Memory.cell m i = pack
        { r := s.port.frameIn[i].extractLsb' 16 8
          g := s.port.frameIn[i].extractLsb' 8 8
          b := s.port.frameIn[i].extractLsb' 0 8 }

/-- R167: GET_PIXELS. -/
def Obligations.GetPixelsReadsLogicalOrder : Prop :=
  ∀ s : State, s.lifecycle = .ready →
    encode .getPixels &&& 0xFFFFFFFF = 0x40000000 ∧
    ∃ f : FrameBus, exec .getPixels s = .next { s with response := .ok (.frame f) } ∧
      ∀ (i : Nat) (h : i < 64),
        f[i] = (unpack (Memory.cell s.frame i)).r ++ (unpack (Memory.cell s.frame i)).g
          ++ (unpack (Memory.cell s.frame i)).b

/-- R170, R171: CLEAR; the FrameWrite equals RAW_FRAME at every orientation. -/
def Obligations.ClearFillsFrame : Prop :=
  ∀ (b : Bool) (s : State), s.lifecycle = .ready →
    encode (.clear b) &&& 0xFFFFFEFF = 0x50000000 ∧ (encode (.clear b)).getLsbD 8 = b ∧
    ∃ m : Memory,
      exec (.clear b) s = .next { s with
        frame := m
        panelFrame := m
        events := s.events ++ [.frameWrite m]
        response := .ok .none } ∧
      (b = false → ∀ k, Memory.byte m k = 0) ∧
      (b = true → ∀ i, i < 64 → Memory.cell m i = pack
        { r := s.port.colorIn.extractLsb' 16 8
          g := s.port.colorIn.extractLsb' 8 8
          b := s.port.colorIn.extractLsb' 0 8 })

/-- R174, R175: FLIP_H. -/
def Obligations.FlipHMirrorsRows : Prop :=
  ∀ (rd : Bool) (s : State), s.lifecycle = .ready →
    encode (.flipH rd) &&& 0xFFFFFDFF = 0x60000000 ∧ (encode (.flipH rd)).getLsbD 9 = rd ∧
    ∃ f : FrameBus,
      (∀ (x y : Nat) (hx : x < 8) (hy : y < 8),
        f[x + 8 * y] = busOfPixel (unpack (Memory.cell s.frame ((7 - x) + 8 * y)))) ∧
      (rd = false → exec (.flipH rd) s = .next { s with response := .ok (.frame f) }) ∧
      (rd = true → ∃ m : Memory,
        exec (.flipH rd) s = .next { s with
          frame := m
          panelFrame := rotate m s.orientation
          events := s.events ++ [.frameWrite (rotate m s.orientation)]
          response := .ok (.frame f) } ∧
        ∀ x y : Nat, x < 8 → y < 8 →
          Memory.cell m (x + 8 * y) = pack (unpack (Memory.cell s.frame ((7 - x) + 8 * y))))

/-- R177, R175: FLIP_V. -/
def Obligations.FlipVSwapsRows : Prop :=
  ∀ (rd : Bool) (s : State), s.lifecycle = .ready →
    encode (.flipV rd) &&& 0xFFFFFDFF = 0x70000000 ∧ (encode (.flipV rd)).getLsbD 9 = rd ∧
    ∃ f : FrameBus,
      (∀ (x y : Nat) (hx : x < 8) (hy : y < 8),
        f[x + 8 * y] = busOfPixel (unpack (Memory.cell s.frame (x + 8 * (7 - y))))) ∧
      (rd = false → exec (.flipV rd) s = .next { s with response := .ok (.frame f) }) ∧
      (rd = true → ∃ m : Memory,
        exec (.flipV rd) s = .next { s with
          frame := m
          panelFrame := rotate m s.orientation
          events := s.events ++ [.frameWrite (rotate m s.orientation)]
          response := .ok (.frame f) } ∧
        ∀ x y : Nat, x < 8 → y < 8 →
          Memory.cell m (x + 8 * y) = pack (unpack (Memory.cell s.frame (x + 8 * (7 - y)))))

/-- R176 (the spec's own inference, marked `derived` there): the involution of FLIP_H, in its four senses. -/
def Obligations.FlipHInvolution : Prop := FlipInvolution .flipH flipRows

/-- R178 (the spec's own inference, marked `derived` there): the involution of FLIP_V in the same senses, and how the
two flips compose. -/
def Obligations.FlipVInvolution : Prop :=
  FlipInvolution .flipV swapRows ∧ (∀ g : Grid, flipRows (swapRows g) = swapRows (flipRows g)) ∧
  ∀ (g : Grid) (i : Nat) (h : i < 64), (flipRows (swapRows g))[63 - i] = g[i]

/-- R180, with the codes of R28: SET_ORIENTATION. -/
def Obligations.SetOrientationStores : Prop :=
  ∀ (o : Orientation) (rd : Bool) (s : State), s.lifecycle = .ready →
    encode (.setOrientation o rd) &&& 0xFFFFF1FF = 0x80000000 ∧
    (encode (.setOrientation o rd)).extractLsb' 10 2 = (match o with
      | .o0 => 0
      | .o90 => 1
      | .o180 => 2
      | .o270 => 3) ∧
    (encode (.setOrientation o rd)).getLsbD 9 = rd ∧
    (rd = true → exec (.setOrientation o rd) s = .next { s with
      orientation := o
      panelFrame := rotate s.frame o
      events := s.events ++ [.frameWrite (rotate s.frame o)]
      response := .ok .none }) ∧
    (rd = false → exec (.setOrientation o rd) s = .next { s with orientation := o, response := .ok .none })

/-- R277 (the spec's own inference, marked `derived` there): CLEAR, then SET_ORIENTATION without redraw, defines
RAW_FRAME, ORIENTATION and the FrameWrite, whatever the state was before. -/
def Obligations.BootSequenceDefinesFrame : Prop :=
  ∀ (b : Bool) (o : Orientation) (s s' : State) (c : StepInput), s.lifecycle = .ready → s'.lifecycle = .ready →
    ∃ t t', execSeq [(.clear b, c), (.setOrientation o false, c)] s = .next t ∧
      execSeq [(.clear b, c), (.setOrientation o false, c)] s' = .next t' ∧
      t.frame = t'.frame ∧ t.orientation = o ∧ t'.orientation = o ∧ t.panelFrame = t'.panelFrame ∧
      ∃ m, t.events = s.events ++ [.frameWrite m] ∧ t'.events = s'.events ++ [.frameWrite m]

/-! ## The gamma commands -/

/-- R205, R206: GET_GAMMA. -/
def Obligations.GetGammaReturnsTable : Prop :=
  ∀ s : State, s.lifecycle = .ready →
    encode .getGamma &&& 0xFFFFFFFF = 0x90000000 ∧
    (s.port.ctlResult = .ok → exec .getGamma s = .next { s with
      events := s.events ++ [.ctlCall .getGamma .none .ok (some s.gammaLut)]
      response := .ok (.gamma s.gammaLut) }) ∧
    (s.port.ctlResult = .fail → s.params.checkControlResult = false → exec .getGamma s = .next { s with
      events := s.events ++ [.ctlCall .getGamma .none .fail (some s.port.ctlDraw)]
      response := .ok (.gamma s.port.ctlDraw) }) ∧
    (s.port.ctlResult = .fail → s.params.checkControlResult = true → exec .getGamma s = .next { s with
      events := s.events ++ [.ctlCall .getGamma .none .fail (some s.port.ctlDraw)]
      response := .error .deviceError })

/-- R211, R212, R210: SET_GAMMA. -/
def Obligations.SetGammaChecksThenWrites : Prop :=
  ∀ s : State, s.lifecycle = .ready →
    encode .setGamma &&& 0xFFFFFFFF = 0xA0000000 ∧
    ((∃ (k : Nat) (h : k < 32), s.port.gammaIn[k].toNat > 31) →
      exec .setGamma s = .next { s with response := .error .invalidGamma }) ∧
    ((∀ (k : Nat) (h : k < 32), s.port.gammaIn[k].toNat ≤ 31) →
      (s.port.ctlResult = .ok → exec .setGamma s = .next { s with
        gammaLut := s.port.gammaIn
        events := s.events ++ [.ctlCall .setGamma (.table s.port.gammaIn) .ok none]
        response := .ok .none }) ∧
      (s.port.ctlResult = .fail → s.params.checkControlResult = false → exec .setGamma s = .next { s with
        gammaLut := s.port.ctlDraw
        events := s.events ++ [.ctlCall .setGamma (.table s.port.gammaIn) .fail none]
        response := .ok .none }) ∧
      (s.port.ctlResult = .fail → s.params.checkControlResult = true → exec .setGamma s = .next { s with
        gammaLut := s.port.ctlDraw
        events := s.events ++ [.ctlCall .setGamma (.table s.port.gammaIn) .fail none]
        response := .error .deviceError }))

/-- R215: RESET_GAMMA. The last clause, that it equals `SET_LOW_LIGHT off`, is the spec's own inference (marked
`derived` in R215), which R225's corner case states. -/
def Obligations.ResetGammaLoadsDefault : Prop :=
  ∀ s : State, s.lifecycle = .ready →
    encode .resetGamma &&& 0xFFFFFFFF = 0xB0000000 ∧
    (s.port.ctlResult = .ok → exec .resetGamma s = .next { s with
      gammaLut := s.params.defaultGamma
      events := s.events ++ [.ctlCall .resetGamma (.selector .selDefault) .ok none]
      response := .ok .none }) ∧
    (s.port.ctlResult = .fail → s.params.checkControlResult = false → exec .resetGamma s = .next { s with
      gammaLut := s.port.ctlDraw
      events := s.events ++ [.ctlCall .resetGamma (.selector .selDefault) .fail none]
      response := .ok .none }) ∧
    (s.port.ctlResult = .fail → s.params.checkControlResult = true → exec .resetGamma s = .next { s with
      gammaLut := s.port.ctlDraw
      events := s.events ++ [.ctlCall .resetGamma (.selector .selDefault) .fail none]
      response := .error .deviceError }) ∧
    exec .resetGamma s = exec (.setLowLight false) s

/-- R220: IS_LOW_LIGHT. -/
def Obligations.IsLowLightComparesTable : Prop :=
  ∀ s : State, s.lifecycle = .ready →
    encode .isLowLight &&& 0xFFFFFFFF = 0xC0000000 ∧
    (s.port.ctlResult = .ok → ∃ b : Bool,
      (b = true ↔ ∀ (k : Nat) (h : k < 32), s.gammaLut[k] = s.params.lowLightTable[k]) ∧
      exec .isLowLight s = .next { s with
        events := s.events ++ [.ctlCall .getGamma .none .ok (some s.gammaLut)]
        response := .ok (.bool b) }) ∧
    (s.port.ctlResult = .fail → s.params.checkControlResult = false → ∃ b : Bool,
      (b = true ↔ ∀ (k : Nat) (h : k < 32), s.port.ctlDraw[k] = s.params.lowLightTable[k]) ∧
      exec .isLowLight s = .next { s with
        events := s.events ++ [.ctlCall .getGamma .none .fail (some s.port.ctlDraw)]
        response := .ok (.bool b) }) ∧
    (s.port.ctlResult = .fail → s.params.checkControlResult = true → exec .isLowLight s = .next { s with
      events := s.events ++ [.ctlCall .getGamma .none .fail (some s.port.ctlDraw)]
      response := .error .deviceError })

/-- R225, R226: SET_LOW_LIGHT; with B = 0 it is RESET_GAMMA. -/
def Obligations.SetLowLightSelectsCurve : Prop :=
  ∀ s : State, s.lifecycle = .ready →
    (∀ b, encode (.setLowLight b) &&& 0xFFFFFEFF = 0xD0000000 ∧ (encode (.setLowLight b)).getLsbD 8 = b) ∧
    (s.port.ctlResult = .ok → exec (.setLowLight true) s = .next { s with
      gammaLut := s.params.lowLightTable
      events := s.events ++ [.ctlCall .resetGamma (.selector .selLow) .ok none]
      response := .ok .none }) ∧
    (s.port.ctlResult = .fail → s.params.checkControlResult = false → exec (.setLowLight true) s = .next { s with
      gammaLut := s.port.ctlDraw
      events := s.events ++ [.ctlCall .resetGamma (.selector .selLow) .fail none]
      response := .ok .none }) ∧
    (s.port.ctlResult = .fail → s.params.checkControlResult = true → exec (.setLowLight true) s = .next { s with
      gammaLut := s.port.ctlDraw
      events := s.events ++ [.ctlCall .resetGamma (.selector .selLow) .fail none]
      response := .error .deviceError }) ∧
    (s.port.ctlResult = .ok → exec (.setLowLight false) s = .next { s with
      gammaLut := s.params.defaultGamma
      events := s.events ++ [.ctlCall .resetGamma (.selector .selDefault) .ok none]
      response := .ok .none }) ∧
    exec (.setLowLight false) s = exec .resetGamma s

/-- R221 (the spec's own inference, marked `derived` there): IS_LOW_LIGHT answers what the last SET_LOW_LIGHT chose,
when no gamma command came between them and both control calls succeed. -/
def Obligations.LowLightRoundTrip : Prop :=
  ∀ (b : Bool) (s : State) (c c' : StepInput) (between : List (Instr × StepInput)),
    s.lifecycle = .ready → s.params.wf = true → c.ctlResult = .ok → c'.ctlResult = .ok →
    (∀ p ∈ between, isGamma p.1 = false) →
    ∃ t, execSeq ((.setLowLight b, c) :: (between ++ [(.isLowLight, c')])) s = .next t ∧
      t.response = .ok (.bool b)

/-- R227 (the spec's own inference, marked `derived` there): no gamma command reads or writes RAW_FRAME, ORIENTATION
or PANEL_FRAME or draws, and no raster command reads or writes GAMMA_LUT or makes a control call. -/
def Obligations.GammaAndRasterIndependent : Prop :=
  ∀ (i : Instr) (s : State), ∃ t, exec i s = .next t ∧
    (isGamma i = true → frameWrites t.events = frameWrites s.events ∧
      ∀ (m panel : Memory) (o : Orientation),
        exec i { s with frame := m, orientation := o, panelFrame := panel } =
          .next { t with frame := m, orientation := o, panelFrame := panel }) ∧
    (isGamma i = false → ctlCalls t.events = ctlCalls s.events ∧
      ∀ lut : GammaTable, exec i { s with gammaLut := lut } = .next { t with gammaLut := lut })

/-- R72: a bus the command does not read is ignored; the draws are read by the gamma commands only. -/
def Obligations.UnreadBusesIgnored : Prop :=
  ∀ (i : Instr) (s : State) (c : StepInput),
    (readsColor i = true → c.colorIn = s.port.colorIn) → (readsFrame i = true → c.frameIn = s.port.frameIn) →
    (readsGamma i = true → c.gammaIn = s.port.gammaIn) →
    (isGamma i = true → c.ctlResult = s.port.ctlResult ∧ c.ctlDraw = s.port.ctlDraw) →
    ∃ t, exec i s = .next t ∧ exec i { s with port := c } = .next { t with port := c }

/-- R27, R203, R211: while control calls succeed, a table with entries at most 31 stays one. -/
def Obligations.GammaStaysLegal : Prop :=
  ∀ (i : Instr) (s : State), s.params.wf = true → s.port.ctlResult = .ok →
    (∀ (k : Nat) (h : k < 32), s.gammaLut[k].toNat ≤ 31) →
    ∃ t, exec i s = .next t ∧ ∀ (k : Nat) (h : k < 32), t.gammaLut[k].toNat ≤ 31
end

