-- ==== Sys2Proof/Laws/Decode.lean ====
section
/-! SUPPORT. The command word and its fields determine each other, and so do the codes and the operands they spell. -/

namespace Sys2Proof

@[simp] theorem CmdFields.toWord_ofWord (w : CmdWord) : (CmdFields.ofWord w).toWord = w := by
  apply BitVec.eq_of_getLsbD_eq
  intro i hi
  simp only [CmdFields.toWord, CmdFields.ofWord, BitVec.getLsbD_append, BitVec.getLsbD_extractLsb']
  interval_cases i <;> simp

@[simp] theorem CmdFields.ofWord_toWord (f : CmdFields) : CmdFields.ofWord f.toWord = f := by
  obtain ⟨op, x, y, ori, rd, b, rsvd⟩ := f
  simp only [CmdFields.toWord, CmdFields.ofWord, CmdFields.mk.injEq]
  refine ⟨?_, ?_, ?_, ?_, ?_, ?_, ?_⟩ <;>
  · apply BitVec.eq_of_getLsbD_eq
    intro i hi
    simp only [BitVec.getLsbD_append, BitVec.getLsbD_extractLsb']
    interval_cases i <;> simp

@[simp] theorem CmdFields.ofWord_encode (i : Instr) : CmdFields.ofWord (encode i) = i.fields :=
  CmdFields.ofWord_toWord i.fields

theorem Op.code_of_ofCode (v : BitVec 4) (op : Op) : Op.ofCode v = some op → v = op.code := by
  have h : ∀ (v : Fin 16) (op : Op), Op.ofCode (BitVec.ofFin v) = some op → BitVec.ofFin v = op.code := by
    intro v op
    cases op <;> revert v <;> decide
  exact h v.toFin op

@[simp] theorem Op.ofCode_code (op : Op) : Op.ofCode op.code = some op := by cases op <;> rfl

@[simp] theorem ofBool_boolOfBit (v : BitVec 1) : BitVec.ofBool (boolOfBit v) = v := by
  have h : ∀ v : Fin 2, BitVec.ofBool (boolOfBit (BitVec.ofFin v)) = BitVec.ofFin v := by decide
  exact h v.toFin

@[simp] theorem boolOfBit_ofBool (b : Bool) : boolOfBit (BitVec.ofBool b) = b := by cases b <;> rfl

@[simp] theorem Orientation.rot_ofRot (v : BitVec 2) : (Orientation.ofRot v).rot = v := by
  have h : ∀ v : Fin 4, (Orientation.ofRot (BitVec.ofFin v)).rot = BitVec.ofFin v := by decide
  exact h v.toFin

@[simp] theorem Orientation.ofRot_rot (o : Orientation) : Orientation.ofRot o.rot = o := by cases o <;> rfl

end Sys2Proof
end

