-- ==== Sys2Proof/Laws/Memory.lean ====
section
/-! SUPPORT. What a frame reads after each write, and that every operation keeps the canonical form. -/

namespace Sys2Proof.Machine

@[simp] theorem Memory.byte_nil (k : Nat) : Memory.byte [] k = 0 := rfl

@[simp] theorem Memory.byte_cons (a : Nat) (v : Byte) (m : Memory) (k : Nat) :
    Memory.byte ((a, v) :: m) k = if a = k then v else Memory.byte m k := rfl

theorem Memory.byte_eq_of_forall_ne {m : Memory} {k : Nat} (h : ∀ c ∈ m, c.1 ≠ k) : Memory.byte m k = 0 := by
  induction m with
  | nil => rfl
  | cons c m ih =>
    obtain ⟨a, v⟩ := c
    simp only [List.mem_cons, forall_eq_or_imp] at h
    rw [Memory.byte_cons, if_neg h.1, ih h.2]

theorem Memory.byte_dropByte (m : Memory) (k j : Nat) :
    Memory.byte (Memory.dropByte m k) j = if j = k then 0 else Memory.byte m j := by
  induction m with
  | nil => simp [Memory.dropByte]
  | cons c m ih =>
    obtain ⟨a, v⟩ := c
    by_cases h : a = k
    · subst h
      rw [Memory.dropByte, if_pos rfl, ih, Memory.byte_cons]
      by_cases hj : j = a
      · simp [hj]
      · simp [hj, Ne.symm hj]
    · rw [Memory.dropByte, if_neg h, Memory.byte_cons, ih, Memory.byte_cons]
      by_cases hj : a = j
      · subst hj; simp [h]
      · simp [hj]

theorem Memory.forall_dropByte_ne (m : Memory) (k : Nat) : ∀ c ∈ Memory.dropByte m k, c.1 ≠ k := by
  induction m with
  | nil => simp [Memory.dropByte]
  | cons c m ih =>
    obtain ⟨a, v⟩ := c
    rw [Memory.dropByte]
    split
    · exact ih
    · rename_i h
      intro c hc
      rcases List.mem_cons.mp hc with rfl | hc
      · exact h
      · exact ih c hc

theorem Memory.dropByte_sublist (m : Memory) (k : Nat) : List.Sublist (Memory.dropByte m k) m := by
  induction m with
  | nil => exact List.Sublist.slnil
  | cons c m ih =>
    obtain ⟨a, v⟩ := c
    rw [Memory.dropByte]
    split
    · exact ih.cons _
    · exact ih.cons_cons _

theorem Memory.byte_putByte {m : Memory} {k : Nat} (h : ∀ c ∈ m, c.1 ≠ k) (b : Byte) (j : Nat) :
    Memory.byte (Memory.putByte m k b) j = if j = k then b else Memory.byte m j := by
  induction m with
  | nil => simp [Memory.putByte, eq_comm]
  | cons c m ih =>
    obtain ⟨a, v⟩ := c
    simp only [List.mem_cons, forall_eq_or_imp] at h
    rw [Memory.putByte]
    split
    · rw [Memory.byte_cons]; simp only [eq_comm]
    · rw [Memory.byte_cons, ih h.2, Memory.byte_cons]
      by_cases hj : a = j
      · subst hj; simp [h.1]
      · simp [hj]

/-- A read after a write: the byte written at its offset, the old byte everywhere else. -/
@[simp] theorem Memory.byte_setByte (m : Memory) (k : Nat) (b : Byte) (j : Nat) :
    Memory.byte (Memory.setByte m k b) j = if j = k then b else Memory.byte m j := by
  unfold Memory.setByte
  split
  · rename_i h
    rw [Memory.byte_dropByte, h]; rfl
  · rw [Memory.byte_putByte (Memory.forall_dropByte_ne m k), Memory.byte_dropByte]
    split <;> rfl

theorem Memory.mem_putByte {m : Memory} {k : Nat} {b : Byte} {c : Host.Cell}
    (h : c ∈ Memory.putByte m k b) : c = (k, b) ∨ c ∈ m := by
  induction m with
  | nil => simpa [Memory.putByte] using h
  | cons d m ih =>
    obtain ⟨a, v⟩ := d
    rw [Memory.putByte] at h
    split at h
    · simpa using h
    · rcases List.mem_cons.mp h with h | h
      · exact .inr (by simp [h])
      · rcases ih h with h | h
        · exact .inl h
        · exact .inr (List.mem_cons_of_mem _ h)

/-- The canonical form, as a proposition. -/
theorem Memory.wf_iff (m : Memory) : m.wf = true ↔
    m.Pairwise (fun p q => p.1 < q.1) ∧ ∀ c ∈ m, c.1 < 128 ∧ c.2 ≠ Memory.unlisted := by
  unfold Memory.wf; rw [decide_eq_true_iff]

theorem Memory.wf_dropByte {m : Memory} (h : m.wf = true) (k : Nat) : Memory.wf (Memory.dropByte m k) = true := by
  rw [Memory.wf_iff] at h ⊢
  exact ⟨h.1.sublist (Memory.dropByte_sublist m k), fun c hc => h.2 c ((Memory.dropByte_sublist m k).subset hc)⟩

theorem Memory.pairwise_putByte {m : Memory} {k : Nat} (hk : ∀ c ∈ m, c.1 ≠ k) (b : Byte)
    (h : List.Pairwise (fun p q : Host.Cell => p.1 < q.1) m) :
    List.Pairwise (fun p q : Host.Cell => p.1 < q.1) (Memory.putByte m k b) := by
  induction m with
  | nil => simp [Memory.putByte]
  | cons c m ih =>
    obtain ⟨a, v⟩ := c
    simp only [List.mem_cons, forall_eq_or_imp] at hk
    have hp := List.pairwise_cons.mp h
    rw [Memory.putByte]
    split
    · rename_i hka
      refine List.pairwise_cons.mpr ⟨fun c hc => ?_, h⟩
      rcases List.mem_cons.mp hc with rfl | hc
      · exact hka
      · exact lt_trans hka (hp.1 c hc)
    · rename_i hka
      refine List.pairwise_cons.mpr ⟨fun c hc => ?_, ih hk.2 hp.2⟩
      rcases Memory.mem_putByte hc with rfl | hc
      · exact lt_of_le_of_ne (not_lt.mp hka) hk.1
      · exact hp.1 c hc

/-- A byte write at an offset of the frame keeps the canonical form. -/
theorem Memory.wf_setByte {m : Memory} (h : m.wf = true) {k : Nat} (hk : k < 128) (b : Byte) :
    Memory.wf (Memory.setByte m k b) = true := by
  unfold Memory.setByte
  split
  · exact Memory.wf_dropByte h k
  · rename_i hb
    have hd := (Memory.wf_iff _).mp (Memory.wf_dropByte h k)
    refine (Memory.wf_iff _).mpr ⟨Memory.pairwise_putByte (Memory.forall_dropByte_ne m k) b hd.1, fun c hc => ?_⟩
    rcases Memory.mem_putByte hc with rfl | hc
    · exact ⟨hk, hb⟩
    · exact hd.2 c hc

theorem Memory.wf_nil : Memory.wf [] = true := rfl

theorem Memory.wf_setWord {m : Memory} (h : m.wf = true) {k : Nat} (hk : k + 1 < 128) (w : Word) :
    Memory.wf (Memory.setWord m k w) = true :=
  Memory.wf_setByte (Memory.wf_setByte h (by omega) _) hk _

/-- A cell write keeps the canonical form. -/
theorem Memory.wf_setCell {m : Memory} (h : m.wf = true) {i : Nat} (hi : i < 64) (w : Word) :
    Memory.wf (Memory.setCell m i w) = true :=
  Memory.wf_setWord h (by omega) w

/-- A run of cell writes keeps the canonical form. -/
theorem Memory.wf_setCells {m : Memory} (h : m.wf = true) {l : List (Nat × Word)} (hl : ∀ p ∈ l, p.1 < 64) :
    Memory.wf (Memory.setCells m l) = true := by
  induction l generalizing m with
  | nil => exact h
  | cons p l ih =>
    simp only [List.mem_cons, forall_eq_or_imp] at hl
    exact ih (Memory.wf_setCell h hl.1 p.2) hl.2

/-- A bulk write of all bytes gives a frame in canonical form. -/
theorem Memory.wf_ofBytes (f : Nat → Byte) : Memory.wf (Memory.ofBytes f) = true := by
  rw [Memory.wf_iff]
  constructor
  · refine List.Pairwise.filterMap (R := fun a b : Nat => a < b) (Memory.entry f) ?_ List.pairwise_lt_range
    intro a b hab c hc d hd
    simp only [Memory.entry, Option.ite_none_left_eq_some, Option.some.injEq] at hc hd
    rw [← hc.2, ← hd.2]
    exact hab
  · intro c hc
    obtain ⟨k, hk, hc⟩ := List.mem_filterMap.mp hc
    simp only [Memory.entry, Option.ite_none_left_eq_some, Option.some.injEq] at hc
    rw [← hc.2]
    exact ⟨List.mem_range.mp hk, hc.1⟩

theorem Memory.wf_ofCells (f : Nat → Word) : Memory.wf (Memory.ofCells f) = true := Memory.wf_ofBytes _

theorem Memory.byte_filterMap_entry (f : Nat → Byte) (l : List Nat) (k : Nat) :
    Memory.byte (l.filterMap (Memory.entry f)) k = if k ∈ l then f k else 0 := by
  induction l with
  | nil => rfl
  | cons a l ih =>
    by_cases h : f a = Memory.unlisted
    · rw [List.filterMap_cons_none (by simp [Memory.entry, h]), ih]
      by_cases hk : k = a
      · subst hk; simp [h, Memory.unlisted]
      · simp [hk]
    · rw [List.filterMap_cons_some (b := (a, f a)) (by simp [Memory.entry, h]), Memory.byte_cons, ih]
      by_cases hk : k = a
      · subst hk; simp
      · simp [hk, Ne.symm hk]

/-- What a bulk write of all bytes reads as. -/
@[simp] theorem Memory.byte_ofBytes (f : Nat → Byte) (k : Nat) :
    Memory.byte (Memory.ofBytes f) k = if k < 128 then f k else 0 := by
  rw [Memory.ofBytes, Memory.byte_filterMap_entry]; simp

theorem word_append_extract (w : Word) : w.extractLsb' 8 8 ++ w.extractLsb' 0 8 = w := by
  apply BitVec.eq_of_getLsbD_eq
  intro i hi
  rw [BitVec.getLsbD_append, BitVec.getLsbD_extractLsb', BitVec.getLsbD_extractLsb']
  by_cases h : i < 8
  · simp [h]
  · simp [h, show i - 8 < 8 by omega, show 8 + (i - 8) = i by omega]

/-- A cell written and read. -/
@[simp] theorem Memory.cell_setCell (m : Memory) (i : Nat) (w : Word) (j : Nat) :
    Memory.cell (Memory.setCell m i w) j = if j = i then w else Memory.cell m j := by
  unfold Memory.cell Memory.setCell Memory.word Memory.setWord
  simp only [Memory.byte_setByte]
  by_cases h : j = i
  · subst h
    rw [if_pos rfl, if_neg (by omega), if_pos rfl, if_pos rfl]
    exact word_append_extract w
  · rw [if_neg (by omega), if_neg (by omega), if_neg (by omega), if_neg (by omega), if_neg h]

/-- A cell write leaves every byte outside the cell alone. -/
theorem Memory.byte_setCell (m : Memory) (i : Nat) (w : Word) (k : Nat) (h : k ≠ 2 * i) (h' : k ≠ 2 * i + 1) :
    Memory.byte (Memory.setCell m i w) k = Memory.byte m k := by
  simp [Memory.setCell, Memory.setWord, h, h']

/-- Cells outside the list are as before. -/
theorem Memory.cell_setCells_of_not_mem (m : Memory) (l : List (Nat × Word)) (j : Nat)
    (h : ∀ p ∈ l, p.1 ≠ j) : Memory.cell (Memory.setCells m l) j = Memory.cell m j := by
  induction l generalizing m with
  | nil => rfl
  | cons p l ih =>
    simp only [List.mem_cons, forall_eq_or_imp] at h
    have := ih (Memory.setCell m p.1 p.2) h.2
    rw [Memory.cell_setCell, if_neg (Ne.symm h.1)] at this
    exact this

/-- A cell written once in the list reads as what was written. -/
theorem Memory.cell_setCells_of_mem (m : Memory) (l : List (Nat × Word)) (hl : (l.map Prod.fst).Nodup)
    {j : Nat} {w : Word} (h : (j, w) ∈ l) : Memory.cell (Memory.setCells m l) j = w := by
  induction l generalizing m with
  | nil => cases h
  | cons p l ih =>
    rw [List.map_cons, List.nodup_cons] at hl
    rcases List.mem_cons.mp h with rfl | h
    · have := Memory.cell_setCells_of_not_mem (Memory.setCell m j w) l j
        (fun q hq he => hl.1 (List.mem_map.mpr ⟨q, hq, he⟩))
      rw [Memory.cell_setCell, if_pos rfl] at this
      exact this
    · exact ih (Memory.setCell m p.1 p.2) hl.2 h

/-- What a bulk write of all cells reads as. -/
theorem Memory.cell_ofCells (f : Nat → Word) {i : Nat} (hi : i < 64) : Memory.cell (Memory.ofCells f) i = f i := by
  unfold Memory.cell Memory.word Memory.ofCells
  rw [Memory.byte_ofBytes _ (2 * i + 1), Memory.byte_ofBytes _ (2 * i), if_pos (show 2 * i + 1 < 128 by omega),
    if_pos (show 2 * i < 128 by omega), if_neg (show ¬(2 * i + 1) % 2 = 0 by omega),
    if_pos (show 2 * i % 2 = 0 by omega), show (2 * i + 1) / 2 = i by omega, show 2 * i / 2 = i by omega]
  exact word_append_extract (f i)

theorem Memory.byte_eq_zero_of_lt {m : Memory} {a : Nat} (h : ∀ c ∈ m, a < c.1) {k : Nat} (hk : k ≤ a) :
    Memory.byte m k = 0 :=
  Memory.byte_eq_of_forall_ne fun c hc => by have := h c hc; omega

/-- Equal frames are equal data: two frames in canonical form that read alike are the same list. -/
theorem Memory.ext_of_wf {m n : Memory} (hm : m.wf = true) (hn : n.wf = true)
    (h : ∀ k, Memory.byte m k = Memory.byte n k) : m = n := by
  rw [Memory.wf_iff] at hm hn
  induction m generalizing n with
  | nil =>
    cases n with
    | nil => rfl
    | cons d n =>
      obtain ⟨b, w⟩ := d
      have := h b
      rw [Memory.byte_nil, Memory.byte_cons, if_pos rfl] at this
      exact absurd this.symm (hn.2 (b, w) (by simp)).2
  | cons c m ih =>
    obtain ⟨a, v⟩ := c
    cases n with
    | nil =>
      have := h a
      rw [Memory.byte_nil, Memory.byte_cons, if_pos rfl] at this
      exact absurd this (hm.2 (a, v) (by simp)).2
    | cons d n =>
      obtain ⟨b, w⟩ := d
      have pm := List.pairwise_cons.mp hm.1
      have pn := List.pairwise_cons.mp hn.1
      have hv : v ≠ 0 := (hm.2 (a, v) (by simp)).2
      have hw : w ≠ 0 := (hn.2 (b, w) (by simp)).2
      have hab : a = b := by
        rcases lt_trichotomy a b with hlt | heq | hlt
        · have := h a
          rw [Memory.byte_cons, if_pos rfl, Memory.byte_cons, if_neg (by omega),
            Memory.byte_eq_zero_of_lt pn.1 (by simpa using hlt.le)] at this
          exact absurd this hv
        · exact heq
        · have := h b
          rw [Memory.byte_cons, if_neg (by omega), Memory.byte_cons, if_pos rfl,
            Memory.byte_eq_zero_of_lt pm.1 (by simpa using hlt.le)] at this
          exact absurd this.symm hw
      subst hab
      have hvw : v = w := by simpa using h a
      subst hvw
      have : m = n := by
        refine ih ⟨pm.2, fun c hc => hm.2 c (by simp [hc])⟩ ⟨pn.2, fun c hc => hn.2 c (by simp [hc])⟩ fun k => ?_
        have := h k
        rw [Memory.byte_cons, Memory.byte_cons] at this
        by_cases hk : a = k
        · subst hk
          rw [Memory.byte_eq_zero_of_lt pm.1 le_rfl, Memory.byte_eq_zero_of_lt pn.1 le_rfl]
        · simpa [hk] using this
      rw [this]

end Sys2Proof.Machine
end

