-- ==== Sys2Proof/Laws/State.lean ====
section
/-! SUPPORT. One lemma per field per shared operation, each true by definition. -/

namespace Sys2Proof.Machine

@[simp] theorem respond_lifecycle (p : Payload) (s : State) : (respond p s).lifecycle = s.lifecycle := rfl
@[simp] theorem respond_frame (p : Payload) (s : State) : (respond p s).frame = s.frame := rfl
@[simp] theorem respond_orientation (p : Payload) (s : State) : (respond p s).orientation = s.orientation := rfl
@[simp] theorem respond_gammaLut (p : Payload) (s : State) : (respond p s).gammaLut = s.gammaLut := rfl
@[simp] theorem respond_panelFrame (p : Payload) (s : State) : (respond p s).panelFrame = s.panelFrame := rfl
@[simp] theorem respond_events (p : Payload) (s : State) : (respond p s).events = s.events := rfl
@[simp] theorem respond_response (p : Payload) (s : State) : (respond p s).response = .ok p := rfl
@[simp] theorem respond_port (p : Payload) (s : State) : (respond p s).port = s.port := rfl
@[simp] theorem respond_pending (p : Payload) (s : State) : (respond p s).pending = s.pending := rfl
@[simp] theorem respond_params (p : Payload) (s : State) : (respond p s).params = s.params := rfl

@[simp] theorem raise_lifecycle (e : Err) (s : State) : (raise e s).lifecycle = s.lifecycle := rfl
@[simp] theorem raise_frame (e : Err) (s : State) : (raise e s).frame = s.frame := rfl
@[simp] theorem raise_orientation (e : Err) (s : State) : (raise e s).orientation = s.orientation := rfl
@[simp] theorem raise_gammaLut (e : Err) (s : State) : (raise e s).gammaLut = s.gammaLut := rfl
@[simp] theorem raise_panelFrame (e : Err) (s : State) : (raise e s).panelFrame = s.panelFrame := rfl
@[simp] theorem raise_events (e : Err) (s : State) : (raise e s).events = s.events := rfl
@[simp] theorem raise_response (e : Err) (s : State) : (raise e s).response = .error e := rfl
@[simp] theorem raise_port (e : Err) (s : State) : (raise e s).port = s.port := rfl
@[simp] theorem raise_pending (e : Err) (s : State) : (raise e s).pending = s.pending := rfl
@[simp] theorem raise_params (e : Err) (s : State) : (raise e s).params = s.params := rfl

@[simp] theorem emit_lifecycle (e : Event) (s : State) : (emit e s).lifecycle = s.lifecycle := rfl
@[simp] theorem emit_frame (e : Event) (s : State) : (emit e s).frame = s.frame := rfl
@[simp] theorem emit_orientation (e : Event) (s : State) : (emit e s).orientation = s.orientation := rfl
@[simp] theorem emit_gammaLut (e : Event) (s : State) : (emit e s).gammaLut = s.gammaLut := rfl
@[simp] theorem emit_panelFrame (e : Event) (s : State) : (emit e s).panelFrame = s.panelFrame := rfl
@[simp] theorem emit_events (e : Event) (s : State) : (emit e s).events = s.events ++ [e] := rfl
@[simp] theorem emit_response (e : Event) (s : State) : (emit e s).response = s.response := rfl
@[simp] theorem emit_port (e : Event) (s : State) : (emit e s).port = s.port := rfl
@[simp] theorem emit_pending (e : Event) (s : State) : (emit e s).pending = s.pending := rfl
@[simp] theorem emit_params (e : Event) (s : State) : (emit e s).params = s.params := rfl

@[simp] theorem draw_lifecycle (s : State) : (draw s).lifecycle = s.lifecycle := rfl
@[simp] theorem draw_frame (s : State) : (draw s).frame = s.frame := rfl
@[simp] theorem draw_orientation (s : State) : (draw s).orientation = s.orientation := rfl
@[simp] theorem draw_gammaLut (s : State) : (draw s).gammaLut = s.gammaLut := rfl
@[simp] theorem draw_panelFrame (s : State) : (draw s).panelFrame = rotate s.frame s.orientation := rfl
@[simp] theorem draw_events (s : State) : (draw s).events = s.events ++ [.frameWrite (rotate s.frame s.orientation)] := rfl
@[simp] theorem draw_response (s : State) : (draw s).response = s.response := rfl
@[simp] theorem draw_port (s : State) : (draw s).port = s.port := rfl
@[simp] theorem draw_pending (s : State) : (draw s).pending = s.pending := rfl
@[simp] theorem draw_params (s : State) : (draw s).params = s.params := rfl

@[simp] theorem storeAndDraw_lifecycle (m : Memory) (s : State) : (storeAndDraw m s).lifecycle = s.lifecycle := rfl
@[simp] theorem storeAndDraw_frame (m : Memory) (s : State) : (storeAndDraw m s).frame = m := rfl
@[simp] theorem storeAndDraw_orientation (m : Memory) (s : State) : (storeAndDraw m s).orientation = s.orientation := rfl
@[simp] theorem storeAndDraw_gammaLut (m : Memory) (s : State) : (storeAndDraw m s).gammaLut = s.gammaLut := rfl
@[simp] theorem storeAndDraw_panelFrame (m : Memory) (s : State) : (storeAndDraw m s).panelFrame = rotate m s.orientation := rfl
@[simp] theorem storeAndDraw_events (m : Memory) (s : State) : (storeAndDraw m s).events = s.events ++ [.frameWrite (rotate m s.orientation)] := rfl
@[simp] theorem storeAndDraw_response (m : Memory) (s : State) : (storeAndDraw m s).response = s.response := rfl
@[simp] theorem storeAndDraw_port (m : Memory) (s : State) : (storeAndDraw m s).port = s.port := rfl
@[simp] theorem storeAndDraw_pending (m : Memory) (s : State) : (storeAndDraw m s).pending = s.pending := rfl
@[simp] theorem storeAndDraw_params (m : Memory) (s : State) : (storeAndDraw m s).params = s.params := rfl

@[simp] theorem ctl_lifecycle (r : Request) (s : State) : (ctl r s).lifecycle = s.lifecycle := rfl
@[simp] theorem ctl_frame (r : Request) (s : State) : (ctl r s).frame = s.frame := rfl
@[simp] theorem ctl_orientation (r : Request) (s : State) : (ctl r s).orientation = s.orientation := rfl
@[simp] theorem ctl_gammaLut (r : Request) (s : State) : (ctl r s).gammaLut = ctlLut r s := rfl
@[simp] theorem ctl_panelFrame (r : Request) (s : State) : (ctl r s).panelFrame = s.panelFrame := rfl
@[simp] theorem ctl_events (r : Request) (s : State) : (ctl r s).events = s.events ++ [.ctlCall r.code r.arg s.port.ctlResult (ctlData r s)] := rfl
@[simp] theorem ctl_response (r : Request) (s : State) : (ctl r s).response = s.response := rfl
@[simp] theorem ctl_port (r : Request) (s : State) : (ctl r s).port = s.port := rfl
@[simp] theorem ctl_pending (r : Request) (s : State) : (ctl r s).pending = s.pending := rfl
@[simp] theorem ctl_params (r : Request) (s : State) : (ctl r s).params = s.params := rfl

@[simp] theorem construct_lifecycle (d : Discovery) (s : State) : (construct d s).lifecycle = Lifecycle.ofDiscovery d := rfl
@[simp] theorem construct_frame (d : Discovery) (s : State) : (construct d s).frame = s.params.initFrame := rfl
@[simp] theorem construct_orientation (d : Discovery) (s : State) : (construct d s).orientation = s.params.initOrientation := rfl
@[simp] theorem construct_gammaLut (d : Discovery) (s : State) : (construct d s).gammaLut = s.gammaLut := rfl
@[simp] theorem construct_panelFrame (d : Discovery) (s : State) : (construct d s).panelFrame = s.panelFrame := rfl
@[simp] theorem construct_events (d : Discovery) (s : State) : (construct d s).events = [] := rfl
@[simp] theorem construct_response (d : Discovery) (s : State) : (construct d s).response = Response.ofLifecycle (Lifecycle.ofDiscovery d) := rfl
@[simp] theorem construct_port (d : Discovery) (s : State) : (construct d s).port = s.port := rfl
@[simp] theorem construct_pending (d : Discovery) (s : State) : (construct d s).pending = s.pending := rfl
@[simp] theorem construct_params (d : Discovery) (s : State) : (construct d s).params = s.params := rfl

@[simp] theorem accept_lifecycle (c : StepInput) (rest : List HostInput) (s : State) : (accept c rest s).lifecycle = s.lifecycle := rfl
@[simp] theorem accept_frame (c : StepInput) (rest : List HostInput) (s : State) : (accept c rest s).frame = s.frame := rfl
@[simp] theorem accept_orientation (c : StepInput) (rest : List HostInput) (s : State) : (accept c rest s).orientation = s.orientation := rfl
@[simp] theorem accept_gammaLut (c : StepInput) (rest : List HostInput) (s : State) : (accept c rest s).gammaLut = s.gammaLut := rfl
@[simp] theorem accept_panelFrame (c : StepInput) (rest : List HostInput) (s : State) : (accept c rest s).panelFrame = s.panelFrame := rfl
@[simp] theorem accept_events (c : StepInput) (rest : List HostInput) (s : State) : (accept c rest s).events = s.events := rfl
@[simp] theorem accept_response (c : StepInput) (rest : List HostInput) (s : State) : (accept c rest s).response = s.response := rfl
@[simp] theorem accept_port (c : StepInput) (rest : List HostInput) (s : State) : (accept c rest s).port = c := rfl
@[simp] theorem accept_pending (c : StepInput) (rest : List HostInput) (s : State) : (accept c rest s).pending = rest := rfl
@[simp] theorem accept_params (c : StepInput) (rest : List HostInput) (s : State) : (accept c rest s).params = s.params := rfl

@[simp] theorem illegal_lifecycle (e : DecodeError) (s : State) : (illegal e s).lifecycle = s.lifecycle := rfl
@[simp] theorem illegal_frame (e : DecodeError) (s : State) : (illegal e s).frame = s.frame := rfl
@[simp] theorem illegal_orientation (e : DecodeError) (s : State) : (illegal e s).orientation = s.orientation := rfl
@[simp] theorem illegal_gammaLut (e : DecodeError) (s : State) : (illegal e s).gammaLut = s.gammaLut := rfl
@[simp] theorem illegal_panelFrame (e : DecodeError) (s : State) : (illegal e s).panelFrame = s.panelFrame := rfl
@[simp] theorem illegal_events (e : DecodeError) (s : State) : (illegal e s).events = s.events := rfl
@[simp] theorem illegal_response (e : DecodeError) (s : State) : (illegal e s).response = .error .illegalCommand := rfl
@[simp] theorem illegal_port (e : DecodeError) (s : State) : (illegal e s).port = s.port := rfl
@[simp] theorem illegal_pending (e : DecodeError) (s : State) : (illegal e s).pending = s.pending := rfl
@[simp] theorem illegal_params (e : DecodeError) (s : State) : (illegal e s).params = s.params := rfl

@[simp] theorem placeWord_lifecycle (s : State) (w : CmdWord) : (placeWord s w).lifecycle = s.lifecycle := rfl
@[simp] theorem placeWord_frame (s : State) (w : CmdWord) : (placeWord s w).frame = s.frame := rfl
@[simp] theorem placeWord_orientation (s : State) (w : CmdWord) : (placeWord s w).orientation = s.orientation := rfl
@[simp] theorem placeWord_gammaLut (s : State) (w : CmdWord) : (placeWord s w).gammaLut = s.gammaLut := rfl
@[simp] theorem placeWord_panelFrame (s : State) (w : CmdWord) : (placeWord s w).panelFrame = s.panelFrame := rfl
@[simp] theorem placeWord_events (s : State) (w : CmdWord) : (placeWord s w).events = s.events := rfl
@[simp] theorem placeWord_response (s : State) (w : CmdWord) : (placeWord s w).response = s.response := rfl
@[simp] theorem placeWord_port (s : State) (w : CmdWord) : (placeWord s w).port = s.port := rfl
@[simp] theorem placeWord_pending (s : State) (w : CmdWord) : (placeWord s w).pending = .command { s.port with cmd := w } :: s.pending := rfl
@[simp] theorem placeWord_params (s : State) (w : CmdWord) : (placeWord s w).params = s.params := rfl

/-! ## ctlRespond: the same fields whichever way it ends -/

@[simp] theorem ctlRespond_lifecycle (r : Request) (p : Payload) (s : State) :
    (ctlRespond r p s).lifecycle = s.lifecycle := by
  unfold ctlRespond; split <;> rfl

@[simp] theorem ctlRespond_frame (r : Request) (p : Payload) (s : State) :
    (ctlRespond r p s).frame = s.frame := by
  unfold ctlRespond; split <;> rfl

@[simp] theorem ctlRespond_orientation (r : Request) (p : Payload) (s : State) :
    (ctlRespond r p s).orientation = s.orientation := by
  unfold ctlRespond; split <;> rfl

@[simp] theorem ctlRespond_gammaLut (r : Request) (p : Payload) (s : State) :
    (ctlRespond r p s).gammaLut = ctlLut r s := by
  unfold ctlRespond; split <;> rfl

@[simp] theorem ctlRespond_panelFrame (r : Request) (p : Payload) (s : State) :
    (ctlRespond r p s).panelFrame = s.panelFrame := by
  unfold ctlRespond; split <;> rfl

@[simp] theorem ctlRespond_events (r : Request) (p : Payload) (s : State) :
    (ctlRespond r p s).events = s.events ++ [.ctlCall r.code r.arg s.port.ctlResult (ctlData r s)] := by
  unfold ctlRespond; split <;> rfl

@[simp] theorem ctlRespond_response (r : Request) (p : Payload) (s : State) :
    (ctlRespond r p s).response =
      if s.port.ctlResult = .fail ∧ s.params.checkControlResult = true then .error .deviceError else .ok p := by
  unfold ctlRespond; split <;> rfl

@[simp] theorem ctlRespond_port (r : Request) (p : Payload) (s : State) :
    (ctlRespond r p s).port = s.port := by
  unfold ctlRespond; split <;> rfl

@[simp] theorem ctlRespond_pending (r : Request) (p : Payload) (s : State) :
    (ctlRespond r p s).pending = s.pending := by
  unfold ctlRespond; split <;> rfl

@[simp] theorem ctlRespond_params (r : Request) (p : Payload) (s : State) :
    (ctlRespond r p s).params = s.params := by
  unfold ctlRespond; split <;> rfl

end Sys2Proof.Machine
end

