-- ==== Sys2Proof/Laws/Ops.lean ====
section
/-! SUPPORT. One lemma per shared operation that says everything it can do, to be cited in place of unfolding it. -/

namespace Sys2Proof.Machine

/-- A command in READY runs its body. -/
theorem command_ready {s : State} (h : s.lifecycle = .ready) (body : State → State) :
    command s body = .next (body s) := by
  unfold command; rw [h]

/-- A command in FAILED(c) ends with that status and does nothing else. -/
theorem command_failed {s : State} {c : FailCause} (h : s.lifecycle = .failed c) (body : State → State) :
    command s body = .next (raise c.err s) := by
  unfold command; rw [h]

/-- Everything a command can do. -/
theorem command_cases {s t : State} {body : State → State} (h : command s body = .next t) :
    (s.lifecycle = .ready ∧ t = body s) ∨ ∃ c, s.lifecycle = .failed c ∧ t = raise c.err s := by
  cases hl : s.lifecycle with
  | ready => rw [command_ready hl] at h; exact .inl ⟨rfl, by injection h with h; exact h.symm⟩
  | failed c => rw [command_failed hl] at h; exact .inr ⟨c, rfl, by injection h with h; exact h.symm⟩

/-- The body a command runs in READY. -/
def execBody : Instr → State → State
  | .setPixel x y => setPixelBody x y
  | .getPixel x y => getPixelBody x y
  | .setPixels => setPixelsBody
  | .getPixels => getPixelsBody
  | .clear b => clearBody b
  | .flipH rd => flipHBody rd
  | .flipV rd => flipVBody rd
  | .setOrientation ori rd => setOrientationBody ori rd
  | .getGamma => getGammaBody
  | .setGamma => setGammaBody
  | .resetGamma => resetGammaBody
  | .isLowLight => isLowLightBody
  | .setLowLight b => setLowLightBody b

/-- Every command is its body behind the life-cycle check. -/
theorem exec_eq_command (i : Instr) (s : State) : exec i s = command s (execBody i) := by
  cases i <;> rfl

/-- Everything a checked control call can do (R204): DEVICE_ERROR if it failed and results are checked, else OK. -/
theorem ctlRespond_cases (r : Request) (p : Payload) (s : State) :
    (s.port.ctlResult = .fail ∧ s.params.checkControlResult = true ∧
      ctlRespond r p s = raise .deviceError (ctl r s)) ∨
    ((s.port.ctlResult = .ok ∨ s.params.checkControlResult = false) ∧ ctlRespond r p s = respond p (ctl r s)) := by
  unfold ctlRespond
  by_cases h : s.port.ctlResult = .fail ∧ s.params.checkControlResult = true
  · exact .inl ⟨h.1, h.2, if_pos h⟩
  · refine .inr ⟨?_, if_neg h⟩
    cases hr : s.port.ctlResult <;> cases hc : s.params.checkControlResult <;> simp_all

theorem ctlLut_ok {r : Request} {s : State} (h : s.port.ctlResult = .ok) :
    ctlLut r s = deviceDo s.params r s.gammaLut := by
  unfold ctlLut; rw [h]

theorem ctlLut_fail {r : Request} {s : State} (h : s.port.ctlResult = .fail) :
    ctlLut r s = deviceFail r s.port.ctlDraw s.gammaLut := by
  unfold ctlLut; rw [h]

theorem ctlTable_ok {s : State} (h : s.port.ctlResult = .ok) : ctlTable s = s.gammaLut := by
  unfold ctlTable; rw [h]

theorem ctlTable_fail {s : State} (h : s.port.ctlResult = .fail) : ctlTable s = s.port.ctlDraw := by
  unfold ctlTable; rw [h]

/-- A CTL_GET_GAMMA call never changes the table (R202, R203). -/
theorem ctlLut_getGamma (s : State) : ctlLut .getGamma s = s.gammaLut := by
  unfold ctlLut; cases s.port.ctlResult <;> rfl

/-- Element i of the grid read from a frame. -/
theorem gridOfFrame_get (m : Memory) (i : Nat) (h : i < 64) : (gridOfFrame m)[i] = unpack (Memory.cell m i) := by
  simp [gridOfFrame]

theorem gridOfBus_get (f : FrameBus) (i : Nat) (h : i < 64) : (gridOfBus f)[i] = pixelOfBus f[i] := by
  simp [gridOfBus]

theorem busOfGrid_get (g : Grid) (i : Nat) (h : i < 64) : (busOfGrid g)[i] = busOfPixel g[i] := by
  simp [busOfGrid]

/-- Cell i of the frame a grid is stored as. -/
theorem cell_frameOfGrid (g : Grid) (i : Nat) (h : i < 64) : Memory.cell (frameOfGrid g) i = pack g[i] := by
  rw [frameOfGrid, Memory.cell_ofCells _ h, dif_pos h]

theorem wf_frameOfGrid (g : Grid) : (frameOfGrid g).wf = true := Memory.wf_ofCells _

/-- The transmitted buffer is in canonical form when the frame is. -/
theorem wf_rotate {m : Memory} (h : m.wf = true) (o : Orientation) : (rotate m o).wf = true := by
  unfold rotate
  split
  · exact h
  · refine Memory.wf_setCells Memory.wf_nil fun p hp => ?_
    obtain ⟨q, _, rfl⟩ := List.mem_map.mp hp
    exact (physIndex q.1 q.2 o).isLt

theorem wf_clearFrame (b : Bool) (color : ColorBus) : (clearFrame b color).wf = true := by
  cases b <;> simp only [clearFrame, Memory.wf_ofBytes, Memory.wf_ofCells]

/-- The constraints of R8, one by one. -/
theorem Params.wf_iff (p : Params) : p.wf = true ↔
    p.initFrame.wf = true ∧ p.defaultGamma.legal = true ∧ p.lowLightTable.legal = true ∧
      p.lowLightTable ≠ p.defaultGamma := by
  unfold Params.wf; simp [and_assoc]

end Sys2Proof.Machine
end

