-- ==== Sys2Proof/Laws/PerInstr.lean ====
section
/-! SUPPORT. Statements about every command as syntax, one lemma per constructor. -/

namespace Sys2Proof.Laws.RowMatch

/-- The encoded word selects the command's own row of R75: `(W & mask) == match`. -/
def Statement (i : Instr) : Prop := encode i &&& i.op.mask = i.op.matchWord

theorem xy_word (op : BitVec 4) (x y : BitVec 8) :
    (CmdFields.mk op x y 0 0 0 0).toWord &&& 0xF0000FFF = (CmdFields.mk op 0 0 0 0 0 0).toWord := by
  apply BitVec.eq_of_getLsbD_eq
  intro i hi
  simp only [CmdFields.toWord, BitVec.getLsbD_and, BitVec.getLsbD_append]
  interval_cases i <;> simp

theorem setPixel (x y : Nat) : Statement (.setPixel x y) := by
  unfold Statement encode Instr.fields CmdFields.ofOp
  simp only [Instr.op, Op.mask]
  rw [xy_word]; decide

theorem getPixel (x y : Nat) : Statement (.getPixel x y) := by
  unfold Statement encode Instr.fields CmdFields.ofOp
  simp only [Instr.op, Op.mask]
  rw [xy_word]; decide

theorem setPixels : Statement .setPixels := by unfold Statement; decide
theorem getPixels : Statement .getPixels := by unfold Statement; decide
theorem clear (b : Bool) : Statement (.clear b) := by unfold Statement; cases b <;> decide
theorem flipH (rd : Bool) : Statement (.flipH rd) := by unfold Statement; cases rd <;> decide
theorem flipV (rd : Bool) : Statement (.flipV rd) := by unfold Statement; cases rd <;> decide
theorem setOrientation (ori : Orientation) (rd : Bool) : Statement (.setOrientation ori rd) := by
  unfold Statement; cases ori <;> cases rd <;> decide
theorem getGamma : Statement .getGamma := by unfold Statement; decide
theorem setGamma : Statement .setGamma := by unfold Statement; decide
theorem resetGamma : Statement .resetGamma := by unfold Statement; decide
theorem isLowLight : Statement .isLowLight := by unfold Statement; decide
theorem setLowLight (b : Bool) : Statement (.setLowLight b) := by unfold Statement; cases b <;> decide

end Sys2Proof.Laws.RowMatch
end

