-- ==== Sys2Proof/Tests/Slice0.lean ====
section
/-! SUPPORT. Small tests against the spec's own vectors (`95_test_vectors.md`, and the worked examples of the rules), and a
witness for the hypotheses of each statement. -/

namespace Sys2Proof.Tests

open Sys2Proof Sys2Proof.Machine

/-! ## A small state -/

/-- The table T of 95 §2.9. -/
def tableT : GammaTable := Vector.ofFn fun i => BitVec.ofNat 8 i.val

/-- The table Bad of 95 §2.9. -/
def tableBad : GammaTable := Vector.ofFn fun i => if i.val = 5 then 32 else 0

/-- A low-light table for the tests; any table other than T would do (R8). -/
def tableL : GammaTable := Vector.ofFn fun _ => 1

/-- Buses for the tests: red on COLOR_IN, white everywhere on FRAME_IN, T on GAMMA_IN. -/
def testPort : StepInput where
  cmd := 0
  colorIn := 0xFF0000
  frameIn := Vector.ofFn fun _ => 0xFFFFFF
  gammaIn := tableT
  ctlResult := .ok
  ctlDraw := tableBad

/-- A READY state on a cleared frame at O0. -/
def base : State where
  lifecycle := .ready
  frame := []
  orientation := .o0
  gammaLut := tableT
  panelFrame := []
  events := []
  response := .ok .none
  port := testPort
  pending := []
  params :=
    { initFrame := []
      initOrientation := .o0
      defaultGamma := tableT
      lowLightTable := tableL
      checkControlResult := false
      getPixelAddressing := .mapped }

/-- `base` with a failing device. -/
def baseFail : State := { base with port := { testPort with ctlResult := .fail } }

/-- `baseFail` with checked control results. -/
def baseChecked : State := { baseFail with params := { base.params with checkControlResult := true } }

/-- `base` with one command pending. -/
def baseWord (w : CmdWord) : State := { base with pending := [.command { testPort with cmd := w }] }

/-- A part of the next state, or a default. -/
def part {α : Type} (d : α) (f : State → α) : Host.Outcome State Fault Refusal → α
  | .next s => f s
  | .fault _ => d
  | .refused _ => d

/-! ## Well-formedness: an ill-formed term for each check -/

theorem test_setPixel_x_too_wide : (Instr.setPixel 256 0).wf = false := by decide
theorem test_setPixel_y_too_wide : (Instr.setPixel 0 256).wf = false := by decide
theorem test_getPixel_x_too_wide : (Instr.getPixel 256 0).wf = false := by decide
theorem test_getPixel_y_too_wide : (Instr.getPixel 0 256).wf = false := by decide
theorem test_frame_out_of_order : Memory.wf [(2, 1), (1, 1)] = false := by decide
theorem test_frame_offset_too_large : Memory.wf [(128, 1)] = false := by decide
theorem test_frame_lists_unlisted_value : Memory.wf [(3, 0)] = false := by decide
theorem test_params_equal_presets :
    Params.wf { base.params with lowLightTable := base.params.defaultGamma } = false := by decide +kernel
theorem test_params_entry_above_31 :
    Params.wf { base.params with lowLightTable := tableBad } = false := by decide +kernel

/-! ## Decoding: words written out from R70, R75 and R82 -/

theorem test_decode_setPixel : decode 0b0001_00000011_00000101_00_0_0_00000000 = .ok (.setPixel 3 5) := by decide
theorem test_decode_getPixel : decode 0b0010_00000000_00000111_00_0_0_00000000 = .ok (.getPixel 0 7) := by decide
theorem test_decode_setPixels : decode 0b0011_00000000_00000000_00_0_0_00000000 = .ok .setPixels := by decide
theorem test_decode_getPixels : decode 0b0100_00000000_00000000_00_0_0_00000000 = .ok .getPixels := by decide
theorem test_decode_clear : decode 0b0101_00000000_00000000_00_0_1_00000000 = .ok (.clear true) := by decide
theorem test_decode_flipH : decode 0b0110_00000000_00000000_00_1_0_00000000 = .ok (.flipH true) := by decide
theorem test_decode_flipV : decode 0b0111_00000000_00000000_00_0_0_00000000 = .ok (.flipV false) := by decide
theorem test_decode_setOrientation :
    decode 0b1000_00000000_00000000_01_1_0_00000000 = .ok (.setOrientation .o90 true) := by decide
theorem test_decode_getGamma : decode 0b1001_00000000_00000000_00_0_0_00000000 = .ok .getGamma := by decide
theorem test_decode_setGamma : decode 0b1010_00000000_00000000_00_0_0_00000000 = .ok .setGamma := by decide
theorem test_decode_resetGamma : decode 0b1011_00000000_00000000_00_0_0_00000000 = .ok .resetGamma := by decide
theorem test_decode_isLowLight : decode 0b1100_00000000_00000000_00_0_0_00000000 = .ok .isLowLight := by decide
theorem test_decode_setLowLight :
    decode 0b1101_00000000_00000000_00_0_1_00000000 = .ok (.setLowLight true) := by decide

/-- 95 §2.10: the illegal words. -/
theorem test_decode_illegal :
    decode 0x00000000 = .error (.reservedOpcode 0x0) ∧ decode 0xE0000000 = .error (.reservedOpcode 0xE) ∧
    decode 0xF1234567 = .error (.reservedOpcode 0xF) ∧ decode 0x30000001 = .error (.strayBits .setPixels) ∧
    decode 0x40100000 = .error (.strayBits .getPixels) ∧ decode 0x50000200 = .error (.strayBits .clear) ∧
    decode 0x60000100 = .error (.strayBits .flipH) ∧ decode 0x80000100 = .error (.strayBits .setOrientation) ∧
    decode 0x20000001 = .error (.strayBits .getPixel) := by decide

theorem test_tableWord_getPixel : decodeTableWord 32 0x20303000 = some (.getPixel 3 3) := by decide

/-! ## The assembler: R80, R82 -/

/-- The names of the test lines. -/
def testNames : AsmNames := ⟨[(['w'], testPort.frameIn)], [(['t'], tableT)]⟩

theorem test_asm_setPixel :
    assembleLine testNames "SET_PIXEL  8, 0, #0a0B0c   ; x" = some ⟨.setPixel 8 0, .color 0x0A0B0C⟩ := by decide
theorem test_asm_coordinate_too_wide : assembleLine testNames "GET_PIXEL 256, 0" = none := by decide
theorem test_asm_named : assembleLine testNames "SET_PIXELS @w" = some ⟨.setPixels, .frame testPort.frameIn⟩ ∧
    assembleLine testNames "SET_GAMMA @t" = some ⟨.setGamma, .gamma tableT⟩ ∧
    assembleLine testNames "SET_GAMMA @w" = none := ⟨rfl, rfl, rfl⟩
/-- R82: the words of `SET_ORIENTATION 90, noredraw` and `FLIP_H redraw`. -/
theorem test_asm_words : (assembleLine testNames "SET_ORIENTATION 90, noredraw").map (encode ·.instr) = some 0x80000400 ∧
    (assembleLine testNames "FLIP_H redraw").map (encode ·.instr) = some 0x60000200 := by decide

/-! ## The step -/

/-- From reset, whatever the open parameters are, a placed word is the next command taken. -/
theorem test_fetchWord_is_taken :
    part false (fun _ => true) (step (State.reset.withFetchWord 32 0x10305000)) = true := by decide
/-- A placed word is the one that runs: R82's SET_PIXEL 8, 0 ends with OUT_OF_BOUNDS. -/
theorem test_fetchWord_runs :
    part (.ok .none) (·.response) (step (base.withFetchWord 32 0x10800000)) = .error .outOfBounds := by decide
/-- 95 P5 step 3: an illegal word. -/
theorem test_step_illegal : part (.ok .none) (·.response) (step (baseWord 0xE0000000)) = .error .illegalCommand := by
  decide
/-- A step runs the command it decodes (R82: 0x80000400). -/
theorem test_step_runs : part .o0 (·.orientation) (step (baseWord 0x80000400)) = .o90 := by decide
/-- R270: a failed construction. -/
theorem test_step_reset : part .ready (·.lifecycle) (step { base with pending := [.reset .notFound] }) =
    .failed .missingDevice := by decide
/-- 95 §2.5: FAILED(MISSING_DEVICE). -/
theorem test_failed_answers : part (.ok .none) (·.response)
    (exec (.setPixel 0 0) { base with lifecycle := .failed .missingDevice }) = .error .missingDevice := by decide

/-! ## The codec and the mapper: 95 §2.1, §2.2, §2.4 and R125 -/

theorem test_pack : pack ⟨100, 150, 200⟩ = 0x64B9 ∧ pack ⟨8, 4, 8⟩ = 0x0821 ∧ pack ⟨255, 128, 0⟩ = 0xFC00 := by decide
theorem test_unpack : unpack 0xABCD = ⟨168, 96, 104⟩ ∧ unpack 0x1234 = ⟨16, 192, 160⟩ ∧
    unpack 0xFFFF = ⟨248, 224, 248⟩ ∧ unpack 0x0040 = ⟨0, 0, 0⟩ := by decide
theorem test_physIndex : physIndex 3 5 .o0 = 43 ∧ physIndex 3 5 .o90 = 26 ∧ physIndex 3 5 .o180 = 20 ∧
    physIndex 3 5 .o270 = 37 ∧ physIndex 1 0 .o90 = 15 ∧ physIndex 1 0 .o270 = 48 := by decide
theorem test_rotate : rotate [(0, 0xCD), (1, 0xAB)] .o90 = [(14, 0xCD), (15, 0xAB)] ∧
    rotate [(0, 0xCD), (1, 0xAB)] .o180 = [(126, 0xCD), (127, 0xAB)] ∧
    rotate [(0, 0xCD), (1, 0xAB)] .o270 = [(112, 0xCD), (113, 0xAB)] := by decide +kernel

/-! ## One step of each command -/

/-- R141, worked example: bytes 86 = 0x00, 87 = 0xF8, and a FrameWrite equal to RAW_FRAME. -/
theorem test_setPixel : part ([], []) (fun t => (t.frame, t.events)) (exec (.setPixel 3 5) base) =
    ([(87, 0xF8)], [.frameWrite [(87, 0xF8)]]) := by decide +kernel
/-- 95 §2.5: X = 8 is out of bounds, with no event. -/
theorem test_setPixel_bounds : part (.ok .none, []) (fun t => (t.response, t.events)) (exec (.setPixel 8 0) base) =
    (.error .outOfBounds, []) := by decide
/-- V-SRC-3: at O90 GET_PIXEL 0, 7 reads cell 0. -/
theorem test_getPixel : part (.ok .none) (·.response)
    (exec (.getPixel 0 7) { base with orientation := .o90, frame := [(0, 0xFF), (1, 0xFF)] }) =
    .ok (.color 0xF8E0F8) := by decide
/-- 95 §2.6: white everywhere. -/
theorem test_setPixels : part 0 (fun t => Memory.cell t.frame 63) (exec .setPixels base) = 0xFFFF := by decide +kernel
/-- 95 §2.6: element 0 whatever the orientation. -/
theorem test_getPixels : part none (fun t => match t.response with
      | .ok (.frame f) => some f[0]
      | _ => none) (exec .getPixels { base with orientation := .o90, frame := [(1, 0xF8)] }) =
    some 0xF80000 := by decide
/-- R170, worked example. -/
theorem test_clear : part (0, 0) (fun t => (Memory.cell t.frame 0, Memory.cell t.frame 63))
    (exec (.clear true) base) = (0xF800, 0xF800) := by decide +kernel
/-- V-SRC-1: CLEAR without a colour. -/
theorem test_clear_none : part [(0, 0)] (·.frame) (exec (.clear false) { base with frame := [(5, 7)] }) = [] := by
  decide +kernel
/-- R174, worked example: the green loss. -/
theorem test_flipH : part [] (·.frame) (exec (.flipH true) { base with frame := [(0, 0x21), (1, 0x08)] }) =
    [(14, 0x01), (15, 0x0C)] := by decide +kernel
/-- R177, worked example. -/
theorem test_flipV : part none (fun t => match t.response with
      | .ok (.frame f) => some (f[56], t.frame)
      | _ => none) (exec (.flipV false) { base with frame := [(1, 0xF8)] }) =
    some (0xF80000, [(1, 0xF8)]) := by decide +kernel
/-- R180, worked example: only physical cell 56. -/
theorem test_setOrientation : part [] (·.panelFrame)
    (exec (.setOrientation .o270 true) { base with frame := [(0, 0xFF), (1, 0xFF)] }) =
    [(112, 0xFF), (113, 0xFF)] := by decide +kernel
/-- 95 §2.9: an entry above 31 is returned as it is. -/
theorem test_getGamma : part (.ok .none) (·.response) (exec .getGamma { base with gammaLut := tableBad }) =
    .ok (.gamma tableBad) := by decide +kernel
/-- 95 §2.9: GET_GAMMA with a failed and checked call. -/
theorem test_getGamma_checked : part (.ok .none) (·.response) (exec .getGamma baseChecked) = .error .deviceError := by
  decide +kernel
/-- 95 §2.9: SET_GAMMA of Bad is rejected with no call. -/
theorem test_setGamma_bad : part (.ok .none, 1) (fun t => (t.response, t.events.length))
    (exec .setGamma { base with port := { testPort with gammaIn := tableBad } }) = (.error .invalidGamma, 0) := by
  decide +kernel
/-- 95 §2.9: SET_GAMMA of T. -/
theorem test_setGamma : part tableBad (·.gammaLut) (exec .setGamma { base with gammaLut := tableL }) = tableT := by
  decide +kernel
/-- 95 §2.9: RESET_GAMMA loads DEFAULT_GAMMA. -/
theorem test_resetGamma : part tableBad (·.gammaLut) (exec .resetGamma { base with gammaLut := tableBad }) = tableT := by
  decide +kernel
/-- 95 §2.9: IS_LOW_LIGHT on D and on L. -/
theorem test_isLowLight : part (.ok .none) (·.response) (exec .isLowLight base) = .ok (.bool false) ∧
    part (.ok .none) (·.response) (exec .isLowLight { base with gammaLut := tableL }) = .ok (.bool true) := by
  decide +kernel
/-- R225, worked example. -/
theorem test_setLowLight : part (tableT, []) (fun t => (t.gammaLut, t.events)) (exec (.setLowLight true) base) =
    (tableL, [.ctlCall .resetGamma (.selector .selLow) .ok none]) := by decide +kernel

/-! ## Witnesses: the hypotheses of each statement can be met together -/

theorem witness_DecodeOfEncode : (Instr.setPixel 255 255).wf = true ∧ (Instr.getPixel 0 0).wf = true := by decide
theorem witness_EncodeOfDecode : decode 0x1FFFF000 = .ok (.setPixel 255 255) := by decide
theorem witness_DecodeSelectsMatchingRow : (0x50000100 : CmdWord) &&& Op.clear.mask = Op.clear.matchWord := by decide
theorem witness_UnmatchedWordIsIllegal :
    (∃ c, (baseWord 0x60000100).pending = [.command c] ∧ ∀ op : Op, c.cmd &&& op.mask ≠ op.matchWord) ∧
    BitVec.extractLsb' 28 4 (0xF1234567 : CmdWord) = 0xF ∧
    BitVec.extractLsb' 28 4 (0x60000100 : CmdWord) = Op.flipH.code ∧
    (0x60000100 : CmdWord) &&& Op.flipH.mask &&& 0x0FFFFFFF ≠ 0 := by
  refine ⟨⟨_, rfl, fun op => by cases op <;> decide⟩, by decide, by decide, by decide⟩
theorem witness_AssembledLinesDecode :
    [(['g', 'r', 'i', 'd'], testPort.frameIn)].lookup ['g', 'r', 'i', 'd'] = some testPort.frameIn ∧
    [(['t', 'a', 'b', 'l', 'e'], tableT)].lookup ['t', 'a', 'b', 'l', 'e'] = some tableT ∧
    assembleLine testNames "GET_PIXEL 3, 3" = some ⟨.getPixel 3 3, .none⟩ ∧
    Op.ofMnemonic ['C', 'L', 'E', 'A', 'R'] = some .clear := ⟨rfl, rfl, by decide, by decide⟩
theorem witness_StepRunsDecodedCommand : (baseWord 0x30000000).pending = [.command { testPort with cmd := 0x30000000 }] ∧
    decode 0x30000000 = .ok .setPixels := by decide +kernel
theorem witness_IdleStepWaits : base.pending = [] := rfl
theorem witness_ResetRunsConstruction (d : Discovery) : { base with pending := [.reset d] }.pending = .reset d :: [] :=
  rfl
theorem witness_ResetAnswersHost (d : Discovery) : { base with pending := [.reset d] }.pending = .reset d :: [] := rfl
theorem base_inv : Inv base := by
  refine ⟨rfl, rfl, by decide +kernel, fun buf h => ?_⟩
  cases h
theorem witness_StepKeepsInvariant : Inv base ∧ ∃ t, step base = .next t := ⟨base_inv, _, rfl⟩
theorem witness_FailedLifecycleAnswersItsStatus :
    { base with lifecycle := .failed .missingDevice }.lifecycle = .failed .missingDevice ∧
    { base with lifecycle := .failed .deviceError }.lifecycle = .failed .deviceError := ⟨rfl, rfl⟩
theorem witness_ErrorEffects :
    (∃ t, exec (.setPixel 8 0) base = .next t ∧ t.response = .error .outOfBounds ∧ base.lifecycle = .ready) ∧
    (∃ t, exec .resetGamma baseChecked = .next t ∧ t.response = .error .deviceError ∧
      baseChecked.lifecycle = .ready) ∧
    (∃ t, exec .setPixels { base with lifecycle := .failed .deviceError } = .next t ∧
      t.response = .error .deviceError) ∧
    ∃ e, decode 0xE0000000 = .error e := ⟨⟨_, rfl, rfl, rfl⟩, ⟨_, rfl, rfl, rfl⟩, ⟨_, rfl, rfl⟩, _, rfl⟩
theorem witness_MapperGroup : (physIndex 0 0 .o0).val = 0 ∧ (physIndex 7 7 .o90).val = 56 ∧
    (physIndex 7 7 .o180).val = 0 ∧ (physIndex 0 0 .o270).val = 56 := by decide
theorem witness_RotatePlacesCells : ∀ i, i < 64 → Memory.cell [] i = 0 :=
  fun i _ => by simp [Memory.cell, Memory.word]
theorem witness_DrawRunsExactlyWhereStated :
    base.lifecycle = .ready ∧ drawsFrame (.setPixel 7 7) = true ∧ drawsFrame (.setPixel 8 7) = false ∧
    drawsFrame (.flipH false) = false ∧ { base with lifecycle := .failed .missingDevice }.lifecycle ≠ .ready ∧
    { base with pending := [.reset .found] }.pending = [.reset .found] ∧
    (baseWord 0xE0000000).pending = [.command { testPort with cmd := 0xE0000000 }] ∧
    decode 0xE0000000 = .error (.reservedOpcode 0xE) := by decide +kernel
theorem witness_EventsPerCommand : base.lifecycle = .ready := rfl
theorem witness_PanelCoherenceKept : Coherent (baseWord 0x60000000) ∧ (∃ t, step (baseWord 0x60000000) = .next t) ∧
    base.lifecycle = .ready ∧ drawsFrame (.clear false) = true := ⟨rfl, ⟨_, rfl⟩, rfl, rfl⟩
theorem witness_PanelFrameIsLastSent : PanelIsLastSent { base with events := [.frameWrite []] } ∧
    ∃ t, step { base with events := [.frameWrite []] } = .next t := by
  refine ⟨fun buf h => ?_, _, rfl⟩
  cases h
  rfl
theorem witness_SetPixelStoresAndDraws : base.lifecycle = .ready ∧ 7 ≤ 7 ∧ (8 > 7 ∨ 0 > 7) ∧ (0 > 7 ∨ 8 > 7) := by decide
theorem witness_GetPixelReadsOneCell : base.lifecycle = .ready ∧ base.params.getPixelAddressing = .mapped ∧ 7 < 8 ∧
    { base with params := { base.params with getPixelAddressing := .logical } }.params.getPixelAddressing = .logical ∧
    (8 > 7 ∨ 0 > 7) := by decide
theorem witness_WriteThenReadLaw : base.lifecycle = .ready ∧ base.params.getPixelAddressing = .mapped ∧
    ((0, 7) : Fin 8 × Fin 8) = readBack .o90 (0, 0) ∧ ((0, 0) : Fin 8 × Fin 8) ≠ readBack .o90 (0, 0) := by decide
theorem witness_GetPixelAgainstGetPixels :
    base.lifecycle = .ready ∧ base.params.getPixelAddressing = .mapped := by decide
theorem witness_SetPixelsReplacesFrame : base.lifecycle = .ready := rfl
theorem witness_GetPixelsReadsLogicalOrder : base.lifecycle = .ready := rfl
theorem witness_ClearFillsFrame : base.lifecycle = .ready := rfl
theorem witness_FlipHMirrorsRows : base.lifecycle = .ready := rfl
theorem witness_FlipVSwapsRows : base.lifecycle = .ready := rfl
theorem witness_FlipHInvolution : base.lifecycle = .ready := rfl
theorem witness_FlipVInvolution : base.lifecycle = .ready := rfl
theorem witness_SetOrientationStores : base.lifecycle = .ready := rfl
theorem witness_BootSequenceDefinesFrame :
    base.lifecycle = .ready ∧ { base with frame := [(1, 1)], orientation := .o90 }.lifecycle = .ready := ⟨rfl, rfl⟩
theorem witness_gamma_results :
    (base.lifecycle = .ready ∧ base.port.ctlResult = .ok) ∧
    (baseFail.lifecycle = .ready ∧ baseFail.port.ctlResult = .fail ∧ baseFail.params.checkControlResult = false) ∧
    (baseChecked.lifecycle = .ready ∧ baseChecked.port.ctlResult = .fail ∧
      baseChecked.params.checkControlResult = true) := by decide
theorem witness_GetGammaReturnsTable : base.lifecycle = .ready ∧ base.port.ctlResult = .ok := witness_gamma_results.1
theorem witness_SetGammaChecksThenWrites : base.lifecycle = .ready ∧
    (∃ (k : Nat) (h : k < 32), tableBad[k].toNat > 31) ∧ ∀ (k : Nat) (h : k < 32), tableT[k].toNat ≤ 31 :=
  ⟨rfl, ⟨5, by decide, by decide⟩, by decide +kernel⟩
theorem witness_ResetGammaLoadsDefault : base.lifecycle = .ready ∧ base.port.ctlResult = .ok := witness_gamma_results.1
theorem witness_IsLowLightComparesTable : base.lifecycle = .ready ∧ base.port.ctlResult = .ok := witness_gamma_results.1
theorem witness_SetLowLightSelectsCurve : base.lifecycle = .ready ∧ base.port.ctlResult = .ok := witness_gamma_results.1
theorem witness_LowLightRoundTrip : base.lifecycle = .ready ∧ base.params.wf = true ∧ testPort.ctlResult = .ok ∧
    ∀ p ∈ [((.clear false : Instr), testPort)], isGamma p.1 = false := by
  refine ⟨rfl, by decide +kernel, rfl, fun p h => ?_⟩
  rw [List.mem_singleton] at h
  rw [h]
  rfl
theorem witness_GammaAndRasterIndependent : isGamma .getGamma = true ∧ isGamma .setPixels = false := by decide
theorem witness_UnreadBusesIgnored :
    (readsColor .setGamma = true → (0 : ColorBus) = testPort.colorIn) ∧
    (readsFrame .setGamma = true → base.port.frameIn = testPort.frameIn) ∧
    (readsGamma .setGamma = true → base.port.gammaIn = testPort.gammaIn) ∧
    (isGamma .setGamma = true → base.port.ctlResult = testPort.ctlResult ∧ base.port.ctlDraw = testPort.ctlDraw) :=
  ⟨fun h => (Bool.false_ne_true h).elim, fun _ => rfl, fun _ => rfl, fun _ => ⟨rfl, rfl⟩⟩
theorem witness_GammaStaysLegal : base.params.wf = true ∧ base.port.ctlResult = .ok ∧
    ∀ (k : Nat) (h : k < 32), base.gammaLut[k].toNat ≤ 31 := by decide +kernel

end Sys2Proof.Tests
end

section
/-! PROOF of O52. A command sequence in READY runs its commands' bodies one after another; a raster command changes
neither the life cycle nor anything a gamma command reads; and IS_LOW_LIGHT compares the table that SET_LOW_LIGHT left
with LOW_LIGHT_TABLE. -/

namespace Sys2Proof.Machine

/-! ## Commands and command sequences in READY -/

theorem exec_ready {s : State} (h : s.lifecycle = .ready) (i : Instr) : exec i s = .next (execBody i s) := by
  rw [exec_eq_command, command_ready h]

@[simp] theorem execSeq_nil (s : State) : execSeq [] s = .next s := rfl

theorem execSeq_cons_ready {s : State} (h : s.lifecycle = .ready) (i : Instr) (c : StepInput)
    (rest : List (Instr × StepInput)) :
    execSeq ((i, c) :: rest) s = execSeq rest (execBody i { s with port := c }) := by
  rw [execSeq, exec_ready (s := { s with port := c }) h]

theorem execSeq_append_of_next {l : List (Instr × StepInput)} {s t : State} (h : execSeq l s = .next t)
    (l' : List (Instr × StepInput)) : execSeq (l ++ l') s = execSeq l' t := by
  induction l generalizing s with
  | nil =>
    rw [execSeq_nil, Host.Outcome.next.injEq] at h
    rw [List.nil_append, h]
  | cons p l ih =>
    obtain ⟨i, c⟩ := p
    rw [execSeq] at h
    split at h
    next u hexec =>
      rw [List.cons_append, execSeq, hexec]
      exact ih h
    · cases h
    · cases h

/-! ## What a raster command can do -/

/-- A raster command sets its response and either stores a frame and an orientation and draws them, or draws nothing
and leaves the frame alone. -/
theorem execBody_raster_cases {i : Instr} (h : isGamma i = false) (s : State) :
    (∃ o r, execBody i s = { s with orientation := o, response := r }) ∨
    ∃ m o r, execBody i s = { draw { s with frame := m, orientation := o } with response := r } := by
  cases i with
  | setPixel x y =>
    simp only [execBody, setPixelBody]
    split
    · exact .inr ⟨_, _, _, rfl⟩
    · exact .inl ⟨_, _, rfl⟩
  | getPixel x y =>
    simp only [execBody, getPixelBody]
    split <;> exact .inl ⟨_, _, rfl⟩
  | setPixels | clear b => exact .inr ⟨_, _, _, rfl⟩
  | getPixels => exact .inl ⟨_, _, rfl⟩
  | flipH rd | flipV rd | setOrientation ori rd =>
    cases rd with
    | true => exact .inr ⟨_, _, _, rfl⟩
    | false => exact .inl ⟨_, _, rfl⟩
  | getGamma | setGamma | resetGamma | isLowLight | setLowLight b => cases h

/-- A raster command keeps the life cycle, the device's gamma table and the parameters. -/
theorem execBody_raster_keeps {i : Instr} (h : isGamma i = false) (s : State) :
    (execBody i s).lifecycle = s.lifecycle ∧ (execBody i s).gammaLut = s.gammaLut ∧
      (execBody i s).params = s.params := by
  obtain ⟨o, r, he⟩ | ⟨m, o, r, he⟩ := execBody_raster_cases h s <;> rw [he] <;> exact ⟨rfl, rfl, rfl⟩

/-- So does a sequence of raster commands, which always completes. -/
theorem execSeq_raster_keeps {l : List (Instr × StepInput)} (hl : ∀ p ∈ l, isGamma p.1 = false) {s : State}
    (h : s.lifecycle = .ready) :
    ∃ t, execSeq l s = .next t ∧ t.lifecycle = .ready ∧ t.gammaLut = s.gammaLut ∧ t.params = s.params := by
  induction l generalizing s with
  | nil => exact ⟨s, rfl, h, rfl, rfl⟩
  | cons p l ih =>
    obtain ⟨i, c⟩ := p
    rw [List.forall_mem_cons] at hl
    obtain ⟨hlife, hlut, hparams⟩ := execBody_raster_keeps hl.1 { s with port := c }
    obtain ⟨t, ht, htlife, htlut, htparams⟩ := ih hl.2 (hlife.trans h)
    exact ⟨t, (execSeq_cons_ready h i c l).trans ht, htlife, htlut.trans hlut, htparams.trans hparams⟩

/-! ## SET_LOW_LIGHT and IS_LOW_LIGHT with a successful control call -/

/-- The preset SET_LOW_LIGHT selects (R203, R225). -/
def Params.preset (p : Params) (b : Bool) : GammaTable := if b then p.lowLightTable else p.defaultGamma

/-- The two presets differ (R8), so comparing one with LOW_LIGHT_TABLE tells which it is. -/
theorem Params.decide_preset_eq_lowLightTable {p : Params} (h : p.wf = true) (b : Bool) :
    decide (p.preset b = p.lowLightTable) = b := by
  obtain ⟨-, -, -, hne⟩ := p.wf_iff.mp h
  cases b with
  | true => exact decide_eq_true rfl
  | false => exact decide_eq_false hne.symm

theorem setLowLightBody_gammaLut {s : State} (h : s.port.ctlResult = .ok) (b : Bool) :
    (setLowLightBody b s).gammaLut = s.params.preset b := by
  rw [setLowLightBody, ctlRespond_gammaLut, ctlLut_ok h]
  cases b <;> rfl

theorem setLowLightBody_params (b : Bool) (s : State) : (setLowLightBody b s).params = s.params :=
  ctlRespond_params _ _ _

theorem isLowLightBody_response {s : State} (h : s.port.ctlResult = .ok) :
    (isLowLightBody s).response = .ok (.bool (decide (s.gammaLut = s.params.lowLightTable))) := by
  simp [isLowLightBody, ctlTable_ok h, h]

/-- Settles O52: the raster commands in between keep the preset SET_LOW_LIGHT loaded, so IS_LOW_LIGHT compares that
preset with LOW_LIGHT_TABLE. -/
theorem lowLightRoundTrip : Obligations.LowLightRoundTrip := by
  intro b s c c' between hready hwf hc hc' hbetween
  obtain ⟨t, hrun, htready, htlut, htparams⟩ := execSeq_raster_keeps hbetween
    (s := setLowLightBody b { s with port := c }) ((ctlRespond_lifecycle _ _ _).trans hready)
  rw [setLowLightBody_gammaLut (s := { s with port := c }) hc] at htlut
  rw [setLowLightBody_params] at htparams
  refine ⟨isLowLightBody { t with port := c' }, ?_, ?_⟩
  · calc execSeq ((.setLowLight b, c) :: (between ++ [(.isLowLight, c')])) s
      _ = execSeq (between ++ [(.isLowLight, c')]) (setLowLightBody b { s with port := c }) :=
        execSeq_cons_ready hready _ _ _
      _ = execSeq [(.isLowLight, c')] t := execSeq_append_of_next hrun _
      _ = .next (isLowLightBody { t with port := c' }) := execSeq_cons_ready htready _ _ _
  · rw [isLowLightBody_response (s := { t with port := c' }) hc', htlut, htparams,
      Params.decide_preset_eq_lowLightTable hwf]

end Sys2Proof.Machine
end

section
/-! PROOF. Inversion lemmas for a step and for a gamma command's body, the counterpart of `execBody_raster_cases`. -/

namespace Sys2Proof.Machine

/-! ## What a step can do -/

/-- Everything a step can do: wait, construct, reject the word, or execute the decoded command. -/
theorem step_cases {s t : State} (h : step s = .next t) :
    (s.pending = [] ∧ t = s) ∨
    (∃ d rest, s.pending = .reset d :: rest ∧ t = construct d { s with pending := rest }) ∨
    (∃ c rest e, s.pending = .command c :: rest ∧ decode c.cmd = .error e ∧ t = illegal e (accept c rest s)) ∨
    ∃ c rest i, s.pending = .command c :: rest ∧ decode c.cmd = .ok i ∧ exec i (accept c rest s) = .next t := by
  unfold step at h
  split at h
  next hp =>
    cases h
    exact .inl ⟨hp, rfl⟩
  next d rest hp =>
    cases h
    exact .inr (.inl ⟨d, rest, hp, rfl⟩)
  next c rest hp =>
    split at h
    next i hd => exact .inr (.inr (.inr ⟨c, rest, i, hp, hd, h⟩))
    next e hd =>
      cases h
      exact .inr (.inr (.inl ⟨c, rest, e, hp, hd, rfl⟩))

/-! ## What a gamma command can do -/

/-- The table a request hands to the device, if any, has passed SET_GAMMA's operand check (R210). -/
def Request.Checked : Request → Prop
  | .getGamma => True
  | .setGamma t => gammaLegal t = true
  | .resetGamma _ => True

/-- A gamma command rejects its operand or makes one control call, with a checked request. -/
theorem execBody_gamma_cases {i : Instr} (h : isGamma i = true) (s : State) :
    execBody i s = raise .invalidGamma s ∨ ∃ q p, execBody i s = ctlRespond q p s ∧ q.Checked := by
  cases i with
  | getGamma | resetGamma | isLowLight | setLowLight b => exact .inr ⟨_, _, rfl, trivial⟩
  | setGamma =>
    simp only [execBody, setGammaBody]
    split
    next hlegal => exact .inr ⟨_, _, rfl, hlegal⟩
    next => exact .inl rfl
  | setPixel x y | getPixel x y | setPixels | getPixels | clear b | flipH rd | flipV rd | setOrientation ori rd =>
    cases h

end Sys2Proof.Machine
end

section
/-! PROOF of O32. DRAW puts the same buffer in PANEL_FRAME and at the end of the log; everything else leaves
PANEL_FRAME and the log's FrameWrites alone, except a reset, which empties the log. -/

namespace Sys2Proof.Machine

@[simp] theorem frameWrites_append_frameWrite (l : List Event) (buf : Memory) :
    frameWrites (l ++ [.frameWrite buf]) = frameWrites l ++ [buf] := List.filterMap_append

@[simp] theorem frameWrites_append_ctlCall (l : List Event) (req : CtlCode) (arg : CtlArg) (res : CtlResult)
    (data : Option GammaTable) : frameWrites (l ++ [.ctlCall req arg res data]) = frameWrites l := by
  simp [frameWrites, Event.buffer]

/-! ## The invariant and the shared operations -/

theorem panelIsLastSent_of_no_events {s : State} (h : s.events = []) : PanelIsLastSent s := by
  intro buf hlast
  rw [h] at hlast
  cases hlast

/-- The invariant reads PANEL_FRAME and the log's FrameWrites only. -/
theorem PanelIsLastSent.congr {s t : State} (h : PanelIsLastSent s) (hpanel : t.panelFrame = s.panelFrame)
    (hwrites : frameWrites t.events = frameWrites s.events) : PanelIsLastSent t := by
  intro buf hlast
  rw [hwrites] at hlast
  exact hpanel.trans (h buf hlast)

/-- DRAW establishes the invariant, whatever held before. -/
theorem panelIsLastSent_draw (s : State) : PanelIsLastSent (draw s) := by
  intro buf hlast
  rw [draw_events, frameWrites_append_frameWrite, List.getLast?_concat] at hlast
  exact Option.some.inj hlast

theorem PanelIsLastSent.ctlRespond {s : State} (h : PanelIsLastSent s) (q : Request) (p : Payload) :
    PanelIsLastSent (ctlRespond q p s) :=
  h.congr (ctlRespond_panelFrame q p s) (by rw [ctlRespond_events, frameWrites_append_ctlCall])

/-! ## The commands and the step -/

theorem PanelIsLastSent.execBody {s : State} (h : PanelIsLastSent s) (i : Instr) :
    PanelIsLastSent (execBody i s) := by
  cases hi : isGamma i with
  | true =>
    obtain he | ⟨q, p, he, -⟩ := execBody_gamma_cases hi s <;> rw [he]
    · exact h.congr rfl rfl
    · exact h.ctlRespond q p
  | false =>
    obtain ⟨o, r, he⟩ | ⟨m, o, r, he⟩ := execBody_raster_cases hi s <;> rw [he]
    · exact h.congr rfl rfl
    · exact (panelIsLastSent_draw { s with frame := m, orientation := o }).congr rfl rfl

theorem PanelIsLastSent.exec {s t : State} {i : Instr} (h : PanelIsLastSent s) (he : exec i s = .next t) :
    PanelIsLastSent t := by
  rw [exec_eq_command] at he
  obtain ⟨-, rfl⟩ | ⟨c, -, rfl⟩ := command_cases he
  · exact h.execBody i
  · exact h.congr rfl rfl

/-- Settles O32: a reset empties the log, a command draws or leaves PANEL_FRAME and the FrameWrites as they were, and
every other step touches neither. -/
theorem panelFrameIsLastSent : Obligations.PanelFrameIsLastSent := by
  refine ⟨panelIsLastSent_of_no_events rfl, fun s t h hstep => ?_⟩
  obtain ⟨-, rfl⟩ | ⟨d, rest, -, rfl⟩ | ⟨c, rest, e, -, -, rfl⟩ | ⟨c, rest, i, -, -, he⟩ := step_cases hstep
  · exact h
  · exact panelIsLastSent_of_no_events rfl
  · exact h.congr rfl rfl
  · exact PanelIsLastSent.exec (s := accept c rest s) (h.congr rfl rfl) he

end Sys2Proof.Machine
end

section
/-! PROOF of O33. A body run from two states that differ in PANEL_FRAME and EVENT_LOG only ends in two states that
again differ there only, and it has appended the same events to both logs. -/

namespace Sys2Proof.Machine

/-- The same state with another PANEL_FRAME and another log. -/
def State.withDevice (s : State) (panel : Memory) (log : List Event) : State :=
  { s with panelFrame := panel, events := log }

/-- `t` and `u`, reached with the logs `log` and `log'`, agree outside PANEL_FRAME and have appended the same events. -/
def EndAlike (log log' : List Event) (t u : State) : Prop :=
  ∃ panel l, t.events = log ++ l ∧ u = t.withDevice panel (log' ++ l)

/-- The control call's result decides the response and nothing else. -/
theorem ctlRespond_eq (q : Request) (p : Payload) (s : State) :
    ctlRespond q p s =
      { ctl q s with
        response := if s.port.ctlResult = .fail ∧ s.params.checkControlResult = true then .error .deviceError
          else .ok p } := by
  unfold ctlRespond
  split <;> rfl

section
variable (s : State) (panel : Memory) (log : List Event)

/-! ## The three ways a command ends -/

theorem endAlike_of_no_event (o : Orientation) (r : Response) :
    EndAlike s.events log { s with orientation := o, response := r }
      { s.withDevice panel log with orientation := o, response := r } := by
  refine ⟨panel, [], (List.append_nil _).symm, ?_⟩
  rw [List.append_nil]
  rfl

theorem endAlike_draw (m : Memory) (o : Orientation) (r : Response) :
    EndAlike s.events log { draw { s with frame := m, orientation := o } with response := r }
      { draw { s.withDevice panel log with frame := m, orientation := o } with response := r } :=
  ⟨_, [_], rfl, rfl⟩

theorem endAlike_ctlRespond (q : Request) (p : Payload) :
    EndAlike s.events log (ctlRespond q p s) (ctlRespond q p (s.withDevice panel log)) := by
  rw [ctlRespond_eq, ctlRespond_eq]
  exact ⟨panel, [_], rfl, rfl⟩

/-! ## The commands -/

theorem execBody_endAlike (i : Instr) :
    EndAlike s.events log (execBody i s) (execBody i (s.withDevice panel log)) := by
  cases i with
  | setPixel x y =>
    simp only [execBody, setPixelBody]
    split
    · exact endAlike_draw s panel log _ _ _
    · exact endAlike_of_no_event s panel log _ _
  | getPixel x y =>
    simp only [execBody, getPixelBody]
    split <;> exact endAlike_of_no_event s panel log _ _
  | setPixels | clear b => exact endAlike_draw s panel log _ _ _
  | getPixels => exact endAlike_of_no_event s panel log _ _
  | flipH rd | flipV rd | setOrientation ori rd =>
    cases rd with
    | true => exact endAlike_draw s panel log _ _ _
    | false => exact endAlike_of_no_event s panel log _ _
  | setGamma =>
    simp only [execBody, setGammaBody, State.withDevice]
    split
    · exact endAlike_ctlRespond s panel log _ _
    · exact endAlike_of_no_event s panel log _ _
  | getGamma | resetGamma | isLowLight | setLowLight b => exact endAlike_ctlRespond s panel log _ _

theorem exec_endAlike (i : Instr) :
    ∃ t u, exec i s = .next t ∧ exec i (s.withDevice panel log) = .next u ∧ EndAlike s.events log t u := by
  rw [exec_eq_command, exec_eq_command]
  cases hl : s.lifecycle with
  | ready =>
    exact ⟨_, _, command_ready hl _, command_ready (s := s.withDevice panel log) hl _,
      execBody_endAlike s panel log i⟩
  | failed c =>
    exact ⟨_, _, command_failed hl _, command_failed (s := s.withDevice panel log) hl _,
      endAlike_of_no_event s panel log _ _⟩

end

/-- Settles O33: the two runs end alike, so they differ in PANEL_FRAME and in what stood in the log before. -/
theorem panelAndLogAreNotRead : Obligations.PanelAndLogAreNotRead := by
  intro i s panel log
  obtain ⟨t, u, ht, hu, panel', l, hevents, rfl⟩ := exec_endAlike s panel log i
  exact ⟨t, _, ht, hu, rfl, rfl, rfl, rfl, rfl, l, hevents, rfl⟩

end Sys2Proof.Machine
end

section
/-! PROOF of O55. A successful control call keeps the table, or loads a preset, which R8 makes legal, or a table that
SET_GAMMA has checked. -/

namespace Sys2Proof

theorem GammaTable.legal_iff (t : GammaTable) : t.legal = true ↔ ∀ (k : Nat) (h : k < 32), t[k].toNat ≤ 31 := by
  simp [GammaTable.legal]

end Sys2Proof

namespace Sys2Proof.Machine

theorem deviceDo_legal {p : Params} (hp : p.wf = true) {q : Request} (hq : q.Checked) {lut : GammaTable}
    (h : lut.legal = true) : (deviceDo p q lut).legal = true := by
  obtain ⟨-, hdefault, hlow, -⟩ := p.wf_iff.mp hp
  cases q with
  | getGamma => exact h
  | setGamma t => exact hq
  | resetGamma sel =>
    cases sel with
    | selDefault => exact hdefault
    | selLow => exact hlow

theorem execBody_gammaLut_legal {s : State} (hwf : s.params.wf = true) (hok : s.port.ctlResult = .ok)
    (h : s.gammaLut.legal = true) (i : Instr) : (execBody i s).gammaLut.legal = true := by
  cases hi : isGamma i with
  | true =>
    obtain he | ⟨q, p, he, hq⟩ := execBody_gamma_cases hi s <;> rw [he]
    · exact h
    · rw [ctlRespond_gammaLut, ctlLut_ok hok]
      exact deviceDo_legal hwf hq h
  | false =>
    obtain ⟨-, hlut, -⟩ := execBody_raster_keeps hi s
    rw [hlut]
    exact h

/-- Settles O55: in READY the body keeps the table legal; in FAILED the command only answers its status. -/
theorem gammaStaysLegal : Obligations.GammaStaysLegal := by
  intro i s hwf hok h
  rw [exec_eq_command]
  cases hl : s.lifecycle with
  | ready =>
    exact ⟨_, command_ready hl _,
      (GammaTable.legal_iff _).mp (execBody_gammaLut_legal hwf hok (s.gammaLut.legal_iff.mpr h) i)⟩
  | failed c => exact ⟨_, command_failed hl _, h⟩

end Sys2Proof.Machine
end

section
/-! PROOF of O30. The body of a command ends in one of three ways, told apart by `drawsFrame` and `callsDevice`: it
appends no event, DRAW's one FrameWrite, or one CtlCall. -/

namespace Sys2Proof.Machine

/-! ## The log's control calls after one more event -/

@[simp] theorem ctlCalls_append_frameWrite (l : List Event) (buf : Memory) :
    ctlCalls (l ++ [.frameWrite buf]) = ctlCalls l := by
  simp [ctlCalls, Event.isCtl]

@[simp] theorem ctlCalls_append_ctlCall (l : List Event) (req : CtlCode) (arg : CtlArg) (res : CtlResult)
    (data : Option GammaTable) :
    ctlCalls (l ++ [.ctlCall req arg res data]) = ctlCalls l ++ [.ctlCall req arg res data] := List.filter_append ..

/-! ## Which commands draw and which call the device -/

theorem drawsFrame_setPixel (x y : Nat) : drawsFrame (.setPixel x y) = decide (x < 8 ∧ y < 8) := by
  simp only [drawsFrame, Nat.lt_succ_iff]

/-- Everything the body of a command can do, by whether it draws (R162) and whether it calls the device (R54). -/
theorem execBody_cases (i : Instr) (s : State) :
    (drawsFrame i = false ∧ callsDevice i s.port.gammaIn = false ∧
      ∃ o r, execBody i s = { s with orientation := o, response := r }) ∨
    (drawsFrame i = true ∧ callsDevice i s.port.gammaIn = false ∧
      ∃ m o r, execBody i s = { draw { s with frame := m, orientation := o } with response := r }) ∨
    (drawsFrame i = false ∧ callsDevice i s.port.gammaIn = true ∧ ∃ q p, execBody i s = ctlRespond q p s) := by
  cases i with
  | setPixel x y =>
    simp only [drawsFrame_setPixel, execBody, setPixelBody]
    split
    next hin => exact .inr (.inl ⟨decide_eq_true hin, rfl, _, _, _, rfl⟩)
    next hout => exact .inl ⟨decide_eq_false hout, rfl, _, _, rfl⟩
  | getPixel x y =>
    simp only [execBody, getPixelBody]
    split <;> exact .inl ⟨rfl, rfl, _, _, rfl⟩
  | setPixels | clear b => exact .inr (.inl ⟨rfl, rfl, _, _, _, rfl⟩)
  | getPixels => exact .inl ⟨rfl, rfl, _, _, rfl⟩
  | flipH rd | flipV rd | setOrientation ori rd =>
    cases rd with
    | true => exact .inr (.inl ⟨rfl, rfl, _, _, _, rfl⟩)
    | false => exact .inl ⟨rfl, rfl, _, _, rfl⟩
  | setGamma =>
    simp only [execBody, setGammaBody]
    split
    next hlegal => exact .inr (.inr ⟨rfl, hlegal, _, _, rfl⟩)
    next hillegal => exact .inl ⟨rfl, hillegal, _, _, rfl⟩
  | getGamma | resetGamma | isLowLight | setLowLight b => exact .inr (.inr ⟨rfl, rfl, _, _, rfl⟩)

/-- Settles O30: each of the three ways a body ends appends the events its two flags count. -/
theorem eventsPerCommand : Obligations.EventsPerCommand := by
  intro i s hready
  refine ⟨execBody i s, exec_ready hready i, ?_⟩
  obtain ⟨hdraw, hcall, o, r, he⟩ | ⟨hdraw, hcall, m, o, r, he⟩ | ⟨hdraw, hcall, q, p, he⟩ := execBody_cases i s <;>
    rw [he, hdraw, hcall]
  · exact ⟨⟨[], by simp⟩, rfl, rfl⟩
  · exact ⟨⟨[_], rfl, le_rfl⟩, by simp, by simp⟩
  · exact ⟨⟨[_], ctlRespond_events q p s, le_rfl⟩, by simp, by simp⟩

end Sys2Proof.Machine
end

section
/-! PROOF of O28. The bytes of a cell before and after a cell write. -/

namespace Sys2Proof.Machine

/-- A cell is its high byte above its low byte (R51). -/
theorem Memory.cell_eq_bytes (m : Memory) (i : Nat) :
    Memory.cell m i = Memory.byte m (2 * i + 1) ++ Memory.byte m (2 * i) := rfl

theorem Memory.byte_setCell_low (m : Memory) (i : Nat) (w : Word) :
    Memory.byte (Memory.setCell m i w) (2 * i) = w.extractLsb' 0 8 := by
  simp [Memory.setCell, Memory.setWord]

theorem Memory.byte_setCell_high (m : Memory) (i : Nat) (w : Word) :
    Memory.byte (Memory.setCell m i w) (2 * i + 1) = w.extractLsb' 8 8 := by
  simp [Memory.setCell, Memory.setWord]

/-- Settles O28: the byte order of a read, the two bytes of a write, and the bytes it leaves alone. -/
theorem cellsAreLittleEndian : Obligations.CellsAreLittleEndian :=
  ⟨Memory.cell_eq_bytes, fun m i w =>
    ⟨Memory.byte_setCell_low m i w, Memory.byte_setCell_high m i w, Memory.byte_setCell m i w⟩⟩

end Sys2Proof.Machine
end

section
/-! PROOF of O1 to O4. A word decodes to a command exactly when its OP is the command's code, the fields the command
does not use are zero, and the fields spell its operands; the first two are what the mask and match of R75 test. -/

namespace Sys2Proof

/-! ## The decoder on fields -/

@[simp] theorem Op.op_assemble (op : Op) (f : CmdFields) : (op.assemble f).op = op := by cases op <;> rfl

/-- Everything `decode` accepts (R75 to R77). -/
theorem CmdFields.decode_eq_ok_iff {f : CmdFields} {i : Instr} :
    f.decode = .ok i ↔ f.op = i.op.code ∧ i.op.fieldsClean f = true ∧ i.op.assemble f = i := by
  constructor
  · intro h
    unfold CmdFields.decode at h
    split at h
    · cases h
    next op hop =>
      split at h
      next hclean =>
        cases h
        rw [Op.op_assemble]
        exact ⟨Op.code_of_ofCode _ _ hop, hclean, rfl⟩
      · cases h
  · rintro ⟨hop, hclean, hassemble⟩
    simp [CmdFields.decode, hop, hclean, hassemble]

/-! ## The fields of a command -/

@[simp] theorem Instr.fields_op (i : Instr) : i.fields.op = i.op.code := by cases i <;> rfl

@[simp] theorem Instr.fieldsClean_fields (i : Instr) : i.op.fieldsClean i.fields = true := by cases i <;> rfl

theorem coordFits_iff (v : Nat) : coordFits v = true ↔ v < 256 := decide_eq_true_iff

/-- The operands come back from their fields (R74): a coordinate because it fits 8 bits. -/
theorem Op.assemble_fields {i : Instr} (h : i.wf = true) : i.op.assemble i.fields = i := by
  cases i with
  | setPixel x y | getPixel x y =>
    simp only [Instr.wf, Bool.and_eq_true, coordFits_iff] at h
    simp [Instr.op, Op.assemble, Instr.fields, h]
  | clear b | flipH b | flipV b | setLowLight b | setOrientation ori b => simp [Instr.op, Op.assemble, Instr.fields]
  | setPixels | getPixels | getGamma | setGamma | resetGamma | isLowLight => rfl

/-- Settles O2: the encoding's fields carry the command's code, leave the other fields zero and spell its operands. -/
theorem decodeOfEncode : Obligations.DecodeOfEncode := by
  intro i hwf
  rw [decode, CmdFields.ofWord_encode]
  exact CmdFields.decode_eq_ok_iff.mpr ⟨i.fields_op, i.fieldsClean_fields, Op.assemble_fields hwf⟩

/-! ## The command of some fields -/

theorem Op.wf_assemble (op : Op) (f : CmdFields) : (op.assemble f).wf = true := by
  cases op with
  | setPixel | getPixel => simp [Op.assemble, Instr.wf, coordFits_iff, f.x.isLt, f.y.isLt]
  | _ => rfl

/-- The command keeps the fields its opcode uses and no others. -/
theorem Op.fields_assemble (op : Op) (f : CmdFields) :
    (op.assemble f).fields =
      ⟨op.code, if op.usesXY then f.x else 0, if op.usesXY then f.y else 0, if op.usesOri then f.ori else 0,
        if op.usesRd then f.rd else 0, if op.usesB then f.b else 0, 0⟩ := by
  cases op <;> simp [Op.assemble, Instr.fields, CmdFields.ofOp, Op.usesXY, Op.usesOri, Op.usesRd, Op.usesB]

/-- R77: the other fields are zero. -/
theorem Op.fieldsClean_iff (op : Op) (f : CmdFields) :
    op.fieldsClean f = true ↔
      (op.usesXY = true ∨ f.x = 0 ∧ f.y = 0) ∧ (op.usesOri = true ∨ f.ori = 0) ∧ (op.usesRd = true ∨ f.rd = 0) ∧
        (op.usesB = true ∨ f.b = 0) ∧ f.rsvd = 0 := by
  simp [Op.fieldsClean, and_assoc]

theorem ite_used_eq_self {n : Nat} {used : Bool} {v : BitVec n} (h : used = true ∨ v = 0) :
    (if used then v else 0) = v := by
  cases used with
  | true => rfl
  | false => exact (h.resolve_left Bool.false_ne_true).symm

/-- Clean fields are those of the command they spell. -/
theorem Op.fields_assemble_of_clean {op : Op} {f : CmdFields} (hop : f.op = op.code)
    (hclean : op.fieldsClean f = true) : (op.assemble f).fields = f := by
  obtain ⟨hxy, hori, hrd, hb, hrsvd⟩ := (op.fieldsClean_iff f).mp hclean
  rw [Op.fields_assemble, ite_used_eq_self (hxy.imp_right And.left), ite_used_eq_self (hxy.imp_right And.right),
    ite_used_eq_self hori, ite_used_eq_self hrd, ite_used_eq_self hb, ← hop, ← hrsvd]

/-- Settles O3: the command is the one its word's fields spell, and encoding it writes those fields back. -/
theorem encodeOfDecode : Obligations.EncodeOfDecode := by
  intro w i h
  obtain ⟨hop, hclean, hassemble⟩ := CmdFields.decode_eq_ok_iff.mp h
  have hwf := i.op.wf_assemble (CmdFields.ofWord w)
  have hfields := Op.fields_assemble_of_clean hop hclean
  rw [hassemble] at hwf hfields
  refine ⟨hwf, ?_⟩
  rw [encode, hfields, CmdFields.toWord_ofWord]

/-! ## The masks and matches of R75 -/

/-- The mask of a field: no bit when the command uses it, otherwise every bit. -/
def fieldMask (n : Nat) (used : Bool) : BitVec n := if used then 0 else BitVec.allOnes n

theorem and_fieldMask_eq_zero_iff {n : Nat} (v : BitVec n) (used : Bool) :
    v &&& fieldMask n used = 0 ↔ used = true ∨ v = 0 := by
  cases used <;> simp [fieldMask]

theorem Op.ofWord_mask (op : Op) :
    CmdFields.ofWord op.mask =
      ⟨BitVec.allOnes 4, fieldMask 8 op.usesXY, fieldMask 8 op.usesXY, fieldMask 2 op.usesOri, fieldMask 1 op.usesRd,
        fieldMask 1 op.usesB, BitVec.allOnes 8⟩ := by
  cases op <;> rfl

theorem Op.ofWord_matchWord (op : Op) : CmdFields.ofWord op.matchWord = CmdFields.ofOp op := by
  cases op <;> rfl

/-- Bitwise and of two words' fields. -/
def CmdFields.and (f g : CmdFields) : CmdFields :=
  ⟨f.op &&& g.op, f.x &&& g.x, f.y &&& g.y, f.ori &&& g.ori, f.rd &&& g.rd, f.b &&& g.b, f.rsvd &&& g.rsvd⟩

theorem CmdFields.ofWord_and (w v : CmdWord) :
    CmdFields.ofWord (w &&& v) = (CmdFields.ofWord w).and (CmdFields.ofWord v) := by
  simp [CmdFields.ofWord, CmdFields.and, BitVec.extractLsb'_and]

theorem CmdFields.ofWord_inj {w v : CmdWord} : CmdFields.ofWord w = CmdFields.ofWord v ↔ w = v :=
  (Function.LeftInverse.injective CmdFields.toWord_ofWord).eq_iff

/-- A word fits a row exactly when its OP is the row's code and the fields the row does not list are zero. -/
theorem Op.fits_iff (op : Op) (w : CmdWord) :
    w &&& op.mask = op.matchWord ↔
      (CmdFields.ofWord w).op = op.code ∧ op.fieldsClean (CmdFields.ofWord w) = true := by
  rw [← CmdFields.ofWord_inj, CmdFields.ofWord_and, Op.ofWord_mask, Op.ofWord_matchWord,
    Op.fieldsClean_iff]
  simp only [CmdFields.and, CmdFields.ofOp, CmdFields.mk.injEq, BitVec.and_allOnes, and_fieldMask_eq_zero_iff,
    or_and_left, and_assoc]

theorem Op.fits_iff_decodes (op : Op) (w : CmdWord) :
    w &&& op.mask = op.matchWord ↔ ∃ i, decode w = .ok i ∧ i.op = op := by
  rw [Op.fits_iff]
  constructor
  · rintro ⟨hop, hclean⟩
    exact ⟨op.assemble (CmdFields.ofWord w), CmdFields.decode_eq_ok_iff.mpr (by simp [hop, hclean]), op.op_assemble _⟩
  · rintro ⟨i, hi, rfl⟩
    obtain ⟨hop, hclean, -⟩ := CmdFields.decode_eq_ok_iff.mp hi
    exact ⟨hop, hclean⟩

/-- Settles O4: a word fits the row it decodes to and no other, so it fits none exactly when it is rejected. -/
theorem decodeSelectsMatchingRow : Obligations.DecodeSelectsMatchingRow := by
  refine ⟨fun w op => op.fits_iff_decodes w, fun w op op' h h' => ?_, fun w => ?_⟩
  · obtain ⟨i, hi, rfl⟩ := (op.fits_iff_decodes w).mp h
    obtain ⟨i', hi', rfl⟩ := (op'.fits_iff_decodes w).mp h'
    cases hi.symm.trans hi'
    rfl
  · simp only [ne_eq, Op.fits_iff_decodes]
    cases decode w <;> simp

/-- Settles O1: the decoder, run on each of the twenty words. -/
theorem sampleWordsDecode : Obligations.SampleWordsDecode := by
  unfold Obligations.SampleWordsDecode
  decide

end Sys2Proof
end

section
/-! PROOF of O20 to O24. PACK joins the top bits of the channels and UNPACK appends zeros to the word's fields, after
`mergeGreen` of the green one; what a round trip keeps and loses follows from `mergeGreen`'s fixed points. -/

namespace Sys2Proof.Machine

/-! ## Appending zeros below a field -/

theorem toNat_append_zeros {m : Nat} (v : BitVec m) (n : Nat) : (v ++ 0#n).toNat = 2 ^ n * v.toNat := by
  rw [BitVec.toNat_append, BitVec.toNat_zero, Nat.or_zero, Nat.shiftLeft_eq, Nat.mul_comm]

theorem extract_append_zeros_eq_self {m n : Nat} {v : BitVec (m + n)} (h : v.toNat % 2 ^ n = 0) :
    v.extractLsb' n m ++ 0#n = v := by
  have hlow : v.extractLsb' 0 n = 0#n := BitVec.eq_of_toNat_eq (by simpa using h)
  rw [← hlow, BitVec.extractLsb'_append_extractLsb']

theorem setWidth_shiftLeft_eq_append {m : Nat} (v : BitVec m) (n : Nat) : v.setWidth (m + n) <<< n = v ++ 0#n := by
  rw [← BitVec.shiftLeftZeroExtend_eq]
  apply BitVec.eq_of_toNat_eq
  rw [toNat_append_zeros, Nat.mul_comm, ← Nat.shiftLeft_eq]
  rfl

/-! ## PACK on fields -/

/-- The word of three 5-6-5 fields (R100). -/
def word565 (r : BitVec 5) (g : BitVec 6) (b : BitVec 5) : Word := r ++ g ++ b

@[simp] theorem red_word565 (r : BitVec 5) (g : BitVec 6) (b : BitVec 5) :
    (word565 r g b).extractLsb' 11 5 = r :=
  (BitVec.extractLsb'_append_eq_of_le (by decide)).trans BitVec.extractLsb'_append_eq_left

@[simp] theorem green_word565 (r : BitVec 5) (g : BitVec 6) (b : BitVec 5) :
    (word565 r g b).extractLsb' 5 6 = g :=
  (BitVec.extractLsb'_append_eq_of_le (by decide)).trans BitVec.extractLsb'_append_eq_right

@[simp] theorem blue_word565 (r : BitVec 5) (g : BitVec 6) (b : BitVec 5) :
    (word565 r g b).extractLsb' 0 5 = b :=
  BitVec.extractLsb'_append_eq_right

theorem word565_fields (w : Word) :
    word565 (w.extractLsb' 11 5) (w.extractLsb' 5 6) (w.extractLsb' 0 5) = w := by
  rw [word565, BitVec.extractLsb'_append_extractLsb'_eq_extractLsb' (start₂ := 11) (start₁ := 5) rfl]
  exact BitVec.extractLsb'_append_extractLsb' (w := 11) (len := 5)

theorem low_green_bits (w : Word) : (w.extractLsb' 5 6).extractLsb' 0 3 = w.extractLsb' 5 3 := by
  ext i hi
  simp [show i < 6 by omega]

theorem word565_green_inj {r : BitVec 5} {g g' : BitVec 6} {b : BitVec 5} :
    word565 r g b = word565 r g' b ↔ g = g' :=
  (Function.LeftInverse.injective (f := (word565 r · b)) (g := BitVec.extractLsb' 5 6) (green_word565 r · b)).eq_iff

theorem pack_eq_word565 (p : Pixel) :
    pack p = word565 (p.r.extractLsb' 3 5) (p.g.extractLsb' 2 6) (p.b.extractLsb' 3 5) := by
  apply BitVec.eq_of_getLsbD_eq
  intro i hi
  simp only [pack, word565, BitVec.getLsbD_append, BitVec.getLsbD_extractLsb', BitVec.getLsbD_or,
    BitVec.getLsbD_shiftLeft, BitVec.truncate_eq_setWidth, BitVec.getLsbD_setWidth, BitVec.getLsbD_ushiftRight]
  interval_cases i <;> simp

@[simp] theorem pack_append (r b : BitVec 5) (g : BitVec 6) (x z : BitVec 3) (y : BitVec 2) :
    pack ⟨r ++ x, g ++ y, b ++ z⟩ = word565 r g b := by
  simp only [pack_eq_word565, BitVec.extractLsb'_append_eq_left]

/-! ## UNPACK on fields -/

/-- The green field a read-back keeps (R103): bits 5 and 0 merged, bits 4 and 3, and nothing of bits 2 and 1. -/
def mergeGreen (g : BitVec 6) : BitVec 6 :=
  BitVec.ofBool (g.getLsbD 0 || g.getLsbD 5) ++ BitVec.ofBool (g.getLsbD 4) ++ BitVec.ofBool (g.getLsbD 3) ++ 0#3

theorem unpack_eq_fields (w : Word) :
    unpack w = ⟨w.extractLsb' 11 5 ++ 0#3, mergeGreen (w.extractLsb' 5 6) ++ 0#2, w.extractLsb' 0 5 ++ 0#3⟩ := by
  simp only [unpack, mergeGreen, Pixel.mk.injEq]
  refine ⟨?_, ?_, ?_⟩ <;>
  · apply BitVec.eq_of_getLsbD_eq
    intro i hi
    simp only [BitVec.truncate_eq_setWidth, BitVec.getLsbD_setWidth, BitVec.getLsbD_append, BitVec.getLsbD_ofBool,
      BitVec.getLsbD_extractLsb', BitVec.getLsbD_and, BitVec.getLsbD_or, BitVec.getLsbD_shiftLeft,
      BitVec.getLsbD_ushiftRight]
    interval_cases i <;> simp [Bool.or_comm]

theorem unpack_word565 (r : BitVec 5) (g : BitVec 6) (b : BitVec 5) :
    unpack (word565 r g b) = ⟨r ++ 0#3, mergeGreen g ++ 0#2, b ++ 0#3⟩ := by
  rw [unpack_eq_fields, red_word565, green_word565, blue_word565]

theorem mergeGreen_toNat (g : BitVec 6) :
    (mergeGreen g).toNat =
      32 * (g.getLsbD 0 || g.getLsbD 5).toNat + 16 * (g.getLsbD 4).toNat + 8 * (g.getLsbD 3).toNat := by
  rw [mergeGreen]
  cases g.getLsbD 0 || g.getLsbD 5 <;> cases g.getLsbD 4 <;> cases g.getLsbD 3 <;> rfl

theorem mergeGreen_eq_self_iff (g : BitVec 6) : mergeGreen g = g ↔ g.extractLsb' 0 3 = 0 := by
  constructor
  · intro h
    rw [← h]
    exact BitVec.extractLsb'_append_eq_right
  · intro h
    have hlow (i : Nat) (hi : i < 3) : g[i] = false := by
      simpa [hi, ← BitVec.getLsbD_eq_getElem] using congrArg (BitVec.getLsbD · i) h
    apply BitVec.eq_of_getLsbD_eq
    intro i hi
    simp only [mergeGreen, BitVec.getLsbD_append, BitVec.getLsbD_ofBool]
    interval_cases i <;> simp [hlow]

@[simp] theorem mergeGreen_idem (g : BitVec 6) : mergeGreen (mergeGreen g) = mergeGreen g :=
  (mergeGreen_eq_self_iff _).mpr BitVec.extractLsb'_append_eq_right

/-! ## PACK of UNPACK and UNPACK of PACK -/

theorem pack_unpack (w : Word) :
    pack (unpack w) = word565 (w.extractLsb' 11 5) (mergeGreen (w.extractLsb' 5 6)) (w.extractLsb' 0 5) := by
  rw [unpack_eq_fields, pack_append]

theorem unpack_pack_unpack (w : Word) : unpack (pack (unpack w)) = unpack w := by
  rw [pack_unpack, unpack_word565, mergeGreen_idem, unpack_eq_fields]

/-- R106: a pixel without the bits R102 drops is read back as it was stored. -/
theorem unpack_pack_eq_self {p : Pixel} (hr : p.r.toNat % 8 = 0) (hg : p.g.toNat % 32 = 0)
    (hb : p.b.toNat % 8 = 0) : unpack (pack p) = p := by
  have hmerge : mergeGreen (p.g.extractLsb' 2 6) = p.g.extractLsb' 2 6 := by
    rw [mergeGreen_eq_self_iff]
    apply BitVec.eq_of_toNat_eq
    simp only [BitVec.extractLsb'_toNat, Nat.shiftRight_eq_div_pow, BitVec.ofNat_eq_ofNat, BitVec.toNat_ofNat]
    omega
  rw [pack_eq_word565, unpack_word565, hmerge, extract_append_zeros_eq_self (m := 5) (n := 3) hr,
    extract_append_zeros_eq_self (m := 6) (n := 2) (by omega), extract_append_zeros_eq_self (m := 5) (n := 3) hb]

/-! ## The statements -/

/-- Settles O20: PACK of a pixel and PACK of a word's own fields, read field by field. -/
theorem packTruncatesChannels : Obligations.PackTruncatesChannels := by
  refine ⟨fun p => ?_, fun w => ?_⟩
  · rw [pack_eq_word565]
    exact ⟨red_word565 .., green_word565 .., blue_word565 ..⟩
  · simp only [BitVec.zeroExtend_eq_setWidth]
    rw [setWidth_shiftLeft_eq_append (m := 5) _ 3, setWidth_shiftLeft_eq_append (m := 6) _ 2,
      setWidth_shiftLeft_eq_append (m := 5) _ 3, pack_append, word565_fields]

/-- Settles O21: appending zeros multiplies, and `mergeGreen_toNat` is the green sum. -/
theorem unpackClosedForm : Obligations.UnpackClosedForm := by
  intro w
  rw [unpack_eq_fields]
  refine ⟨toNat_append_zeros .., toNat_append_zeros .., (toNat_append_zeros ..).trans ?_⟩
  rw [mergeGreen_toNat]
  simp only [BitVec.getLsbD_extractLsb', Nat.reduceLT, Nat.reduceAdd, decide_true, Bool.true_and]
  omega

/-- Settles O22: the second `mergeGreen` changes nothing, for a word and so for the PACK of a pixel. -/
theorem readBackIsStable : Obligations.ReadBackIsStable :=
  ⟨fun p => unpack_pack_unpack (pack p), unpack_pack_unpack, by decide⟩

/-- Settles O23: re-packing only applies `mergeGreen`, which keeps the fields with zero low bits and no others. -/
theorem repackLoss : Obligations.RepackLoss := by
  refine ⟨fun w => ?_, fun w => ?_, fun w => congrArg pack (unpack_pack_unpack w)⟩
  · rw [pack_unpack]
    calc
      _ ↔ _ = word565 (w.extractLsb' 11 5) (w.extractLsb' 5 6) (w.extractLsb' 0 5) := by rw [word565_fields]
      _ ↔ mergeGreen (w.extractLsb' 5 6) = w.extractLsb' 5 6 := word565_green_inj
      _ ↔ (w.extractLsb' 5 6).extractLsb' 0 3 = 0 := mergeGreen_eq_self_iff _
      _ ↔ _ := by rw [low_green_bits]
  · rw [pack_unpack]
    apply BitVec.eq_of_getLsbD_eq
    intro i hi
    simp only [word565, mergeGreen, BitVec.getLsbD_append, BitVec.getLsbD_ofBool, BitVec.getLsbD_extractLsb',
      BitVec.getLsbD_and, BitVec.getLsbD_or]
    cases w.getLsbD 5 <;> interval_cases i <;> simp

/-- Settles O24: the closed form one way; the other way, the pixel is the UNPACK of its own PACK. -/
theorem readableColours : Obligations.ReadableColours := by
  intro p
  constructor
  · rintro ⟨w, rfl⟩
    obtain ⟨hr, hb, hg⟩ := unpackClosedForm w
    omega
  · rintro ⟨hr, hg, hb⟩
    exact ⟨pack p, unpack_pack_eq_self hr hg hb⟩

end Sys2Proof.Machine
end

section
/-! PROOF of O25 to O27. PHYS_INDEX is the logical index of the coordinate map of R120, which the read-back map of R148
inverts; so it is a bijection, and DRAW's loop writes each of the 64 cells of its buffer exactly once. -/

namespace Sys2Proof.Machine

/-! ## The formulas of R120 -/

@[simp] theorem logicalIndex_val (x y : Fin 8) : (logicalIndex x y).val = x.val + 8 * y.val := rfl

@[simp] theorem physIndex_o0_val (x y : Fin 8) : (physIndex x y .o0).val = x.val + 8 * y.val := rfl

@[simp] theorem physIndex_o90_val (x y : Fin 8) : (physIndex x y .o90).val = (7 - y.val) + 8 * x.val := rfl

@[simp] theorem physIndex_o180_val (x y : Fin 8) : (physIndex x y .o180).val = 63 - (x.val + 8 * y.val) := rfl

@[simp] theorem physIndex_o270_val (x y : Fin 8) : (physIndex x y .o270).val = y.val + 8 * (7 - x.val) := rfl

/-! ## The coordinate maps and their inverses -/

/-- The mirrored coordinate of an axis does not wrap. -/
theorem val_seven_sub (a : Fin 8) : (7 - a).val = 7 - a.val := Fin.sub_val_of_le (Fin.le_last a)

@[simp] theorem readBack_mapCoord (o : Orientation) (p : Fin 8 × Fin 8) : readBack o (mapCoord o p) = p := by
  cases o <;> simp only [readBack, mapCoord, sub_sub_cancel]

@[simp] theorem mapCoord_readBack (o : Orientation) (p : Fin 8 × Fin 8) : mapCoord o (readBack o p) = p := by
  cases o <;> simp only [readBack, mapCoord, sub_sub_cancel]

theorem mapCoord_eq_iff {o : Orientation} {p q : Fin 8 × Fin 8} : mapCoord o q = p ↔ q = readBack o p :=
  ⟨fun h => h ▸ (readBack_mapCoord o q).symm, fun h => h ▸ mapCoord_readBack o p⟩

theorem mapCoord_injective (o : Orientation) : Function.Injective (mapCoord o) :=
  Function.LeftInverse.injective (readBack_mapCoord o)

theorem mapCoord_o90_twice (p : Fin 8 × Fin 8) : mapCoord .o90 (mapCoord .o90 p) = mapCoord .o180 p := rfl

theorem mapCoord_o90_thrice (p : Fin 8 × Fin 8) :
    mapCoord .o90 (mapCoord .o90 (mapCoord .o90 p)) = mapCoord .o270 p := by
  simp only [mapCoord, sub_sub_cancel]

/-! ## PHYS_INDEX as an index of coordinates -/

theorem logicalIndex_inj {p q : Fin 8 × Fin 8} : logicalIndex p.1 p.2 = logicalIndex q.1 q.2 ↔ p = q := by
  simp only [Fin.ext_iff, logicalIndex_val, Prod.ext_iff]
  omega

theorem physIndex_eq_logicalIndex_mapCoord (o : Orientation) (p : Fin 8 × Fin 8) :
    physIndex p.1 p.2 o = logicalIndex (mapCoord o p).1 (mapCoord o p).2 := by
  rw [Fin.ext_iff]
  cases o <;> simp only [physIndex_o0_val, physIndex_o90_val, physIndex_o180_val, physIndex_o270_val,
    logicalIndex_val, mapCoord, val_seven_sub]
  case o180 => omega

theorem physIndex_injective (o : Orientation) : Function.Injective fun p : Fin 8 × Fin 8 => physIndex p.1 p.2 o := by
  intro p q h
  simp only [physIndex_eq_logicalIndex_mapCoord, logicalIndex_inj] at h
  exact mapCoord_injective o h

/-- Settles O25: an injective map between two sets of 64 elements. -/
theorem physIndexBijective : Obligations.PhysIndexBijective := fun o =>
  (Fintype.bijective_iff_injective_and_card _).mpr ⟨physIndex_injective o, by simp⟩

/-- The inverses of R123, read off the formulas of R120. -/
theorem coord_of_physIndex (x y : Fin 8) (i : Nat) :
    ((physIndex x y .o0).val = i → (x.val, y.val) = (i % 8, i / 8)) ∧
    ((physIndex x y .o90).val = i → (x.val, y.val) = (i / 8, 7 - i % 8)) ∧
    ((physIndex x y .o180).val = i → (x.val, y.val) = ((63 - i) % 8, (63 - i) / 8)) ∧
    ((physIndex x y .o270).val = i → (x.val, y.val) = (7 - i / 8, i % 8)) := by
  simp only [physIndex_o0_val, physIndex_o90_val, physIndex_o180_val, physIndex_o270_val, Prod.mk.injEq]
  omega

/-- Settles O26: the inverse laws of the group are those of the read-back map. -/
theorem mapperGroup : Obligations.MapperGroup :=
  ⟨fun o p => congrArg Fin.val (physIndex_eq_logicalIndex_mapCoord o p), coord_of_physIndex, mapCoord_o90_twice,
    mapCoord_o90_thrice, mapCoord_readBack .o90, readBack_mapCoord .o90, mapCoord_readBack .o180, fun _ => rfl, rfl⟩

/-! ## DRAW's buffer -/

theorem coords_nodup : coords.Nodup := by decide

theorem mem_coords (p : Fin 8 × Fin 8) : p ∈ coords := by simp [coords]

/-- The defining equation of ROTATE (R161). -/
theorem cell_rotate (m : Memory) (o : Orientation) (x y : Fin 8) :
    Memory.cell (rotate m o) (physIndex x y o).val = Memory.cell m (logicalIndex x y).val := by
  unfold rotate
  split
  next ho => rw [ho]; rfl
  next =>
    refine Memory.cell_setCells_of_mem _ _ ?_ (List.mem_map.mpr ⟨(x, y), mem_coords _, rfl⟩)
    rw [List.map_map]
    exact coords_nodup.map (Fin.val_injective.comp (physIndex_injective o))

theorem cell_rotate_uniform {m : Memory} {w : Word} (h : ∀ i, i < 64 → Memory.cell m i = w) (o : Orientation)
    (i : Nat) (hi : i < 64) : Memory.cell (rotate m o) i = w := by
  obtain ⟨⟨x, y⟩, hxy⟩ := (physIndexBijective o).surjective ⟨i, hi⟩
  have hcell := cell_rotate m o x y
  rw [show physIndex x y o = ⟨i, hi⟩ from hxy] at hcell
  exact hcell.trans (h _ (logicalIndex x y).isLt)

/-- Frames that agree on a cell agree on its two bytes. -/
theorem Memory.byte_eq_of_cell_eq {m n : Memory} {k : Nat} (h : Memory.cell m (k / 2) = Memory.cell n (k / 2)) :
    Memory.byte m k = Memory.byte n k := by
  rw [Memory.cell_eq_bytes, Memory.cell_eq_bytes] at h
  obtain hk | hk : k = 2 * (k / 2) ∨ k = 2 * (k / 2) + 1 := by omega
  · have hlow := congrArg (BitVec.extractLsb' 0 8) h
    rwa [BitVec.extractLsb'_append_eq_right, BitVec.extractLsb'_append_eq_right, ← hk] at hlow
  · have hhigh := congrArg (BitVec.extractLsb' 8 8) h
    rwa [BitVec.extractLsb'_append_eq_left, BitVec.extractLsb'_append_eq_left, ← hk] at hhigh

/-- Settles O27: a frame whose cells are all `w` is rotated into one whose cells, and so whose bytes, are the same. -/
theorem rotatePlacesCells : Obligations.RotatePlacesCells :=
  ⟨cell_rotate, fun m o w h k hk =>
    have hcell : k / 2 < 64 := by omega
    Memory.byte_eq_of_cell_eq ((cell_rotate_uniform h o _ hcell).trans (h _ hcell).symm)⟩

end Sys2Proof.Machine
end

section
/-! PROOF of O36 and O37. With MAPPED addressing GET_PIXEL reads the cell of PHYS_INDEX, which is the cell a SET_PIXEL
wrote exactly at the read-back coordinate, and element `c + 8*r` of the grid GET_PIXELS answers. -/

namespace Sys2Proof.Machine

/-! ## The single-pixel commands within bounds -/

theorem exec_setPixel_of_lt {s : State} (h : s.lifecycle = .ready) {x y : Nat} (hx : x < 8) (hy : y < 8) :
    exec (.setPixel x y) s = .next (respond .none
      (storeAndDraw (Memory.setCell s.frame (x + 8 * y) (pack (pixelOfBus s.port.colorIn))) s)) :=
  (exec_ready h _).trans (congrArg _ (if_pos ⟨hx, hy⟩))

theorem exec_getPixel_of_lt {s : State} (h : s.lifecycle = .ready) (x y : Fin 8) :
    exec (.getPixel x.val y.val) s = .next (respond (.color (busOfPixel (unpack
      (Memory.cell s.frame (readIndex s.params.getPixelAddressing x y s.orientation).val)))) s) :=
  (exec_ready h _).trans (congrArg _ (dif_pos ⟨x.isLt, y.isLt⟩))

/-- GET_PIXEL with MAPPED addressing reads the cell of PHYS_INDEX (R146). -/
theorem exec_getPixel_mapped {s : State} (h : s.lifecycle = .ready) (hmap : s.params.getPixelAddressing = .mapped)
    (x y : Fin 8) :
    exec (.getPixel x.val y.val) s = .next (respond (.color (busOfPixel (unpack
      (Memory.cell s.frame (physIndex x y s.orientation).val)))) s) := by
  rw [exec_getPixel_of_lt h, hmap, readIndex]

/-! ## The cell written at p and read at q -/

theorem physIndex_eq_logicalIndex_iff {o : Orientation} {p q : Fin 8 × Fin 8} :
    physIndex q.1 q.2 o = logicalIndex p.1 p.2 ↔ q = readBack o p := by
  rw [physIndex_eq_logicalIndex_mapCoord, logicalIndex_inj, mapCoord_eq_iff]

theorem physIndex_val_eq_iff {o : Orientation} {p q : Fin 8 × Fin 8} :
    (physIndex q.1 q.2 o).val = p.1.val + 8 * p.2.val ↔ q = readBack o p :=
  Fin.ext_iff.symm.trans physIndex_eq_logicalIndex_iff

/-- Settles O36: the cell PHYS_INDEX gives q is the one written at p exactly when q is the read-back coordinate. -/
theorem writeThenReadLaw : Obligations.WriteThenReadLaw := by
  intro s p q c hready hmap
  refine ⟨_, _, exec_setPixel_of_lt hready p.1.isLt p.2.isLt,
    exec_getPixel_mapped (by exact hready) (by exact hmap) q.1 q.2, mapCoord_eq_iff.symm, fun hq => ?_, fun hq => ⟨physIndex q.1 q.2 s.orientation, ?_, ?_⟩⟩
  · simp [physIndex_val_eq_iff.mpr hq]
  · exact fun hi => hq (physIndex_val_eq_iff.mp hi)
  · simp [physIndex_val_eq_iff, hq]

/-! ## GET_PIXEL and GET_PIXELS -/

/-- Settles O37: both read the cell of the mapped coordinate. -/
theorem getPixelAgainstGetPixels : Obligations.GetPixelAgainstGetPixels := by
  intro s p hready hmap
  have hlt : (mapCoord s.orientation p).1.val + 8 * (mapCoord s.orientation p).2.val < 64 := (logicalIndex _ _).isLt
  refine ⟨_, _, _, exec_ready hready .getPixels, rfl, exec_getPixel_mapped hready hmap p.1 p.2, hlt, ?_⟩
  rw [respond_response, busOfGrid_get, gridOfFrame_get, physIndex_eq_logicalIndex_mapCoord, logicalIndex_val]

end Sys2Proof.Machine
end

section
/-! PROOF of O34 and O35. The coordinates stand in the X and Y fields of the word; within bounds SET_PIXEL is a cell
write followed by DRAW and GET_PIXEL a read of the addressed cell, and outside them both only answer OUT_OF_BOUNDS. -/

namespace Sys2Proof

/-! ## The coordinate fields of a command word -/

theorem xField_encode (i : Instr) : (encode i).extractLsb' 20 8 = i.fields.x :=
  congrArg CmdFields.x (CmdFields.ofWord_encode i)

theorem yField_encode (i : Instr) : (encode i).extractLsb' 12 8 = i.fields.y :=
  congrArg CmdFields.y (CmdFields.ofWord_encode i)

end Sys2Proof

namespace Sys2Proof.Machine

/-! ## The single-pixel commands out of bounds -/

theorem not_inBounds {x y : Nat} (h : x > 7 ∨ y > 7) : ¬(x < 8 ∧ y < 8) := by omega

theorem exec_setPixel_of_gt {s : State} (h : s.lifecycle = .ready) {x y : Nat} (hout : x > 7 ∨ y > 7) :
    exec (.setPixel x y) s = .next (raise .outOfBounds s) :=
  (exec_ready h _).trans (congrArg _ (if_neg (not_inBounds hout)))

theorem exec_getPixel_of_gt {s : State} (h : s.lifecycle = .ready) {x y : Nat} (hout : x > 7 ∨ y > 7) :
    exec (.getPixel x y) s = .next (raise .outOfBounds s) :=
  (exec_ready h _).trans (congrArg _ (dif_neg (not_inBounds hout)))

/-! ## GET_PIXEL with LOGICAL addressing -/

/-- R147: the logical cell, whatever ORIENTATION is. -/
theorem exec_getPixel_logical {s : State} (h : s.lifecycle = .ready) (hlog : s.params.getPixelAddressing = .logical)
    (x y : Fin 8) :
    exec (.getPixel x.val y.val) s = .next (respond (.color (busOfPixel (unpack
      (Memory.cell s.frame (logicalIndex x y).val)))) s) := by
  rw [exec_getPixel_of_lt h, hlog, readIndex]

/-! ## The statements -/

/-- Settles O34: the frame drawn is the old one after one cell write, which keeps every byte outside that cell. -/
theorem setPixelStoresAndDraws : Obligations.SetPixelStoresAndDraws := by
  intro x y s hready
  refine ⟨Laws.RowMatch.setPixel x y, xField_encode _, yField_encode _, fun hx hy => ?_, exec_setPixel_of_gt hready⟩
  refine ⟨Memory.setCell s.frame (x + 8 * y) (pack (pixelOfBus s.port.colorIn)), ?_, ?_, ?_⟩
  · exact exec_setPixel_of_lt hready (Nat.lt_succ_of_le hx) (Nat.lt_succ_of_le hy)
  · exact (Memory.cell_setCell ..).trans (if_pos rfl)
  · exact Memory.byte_setCell _ _ _

/-- Settles O35: one reading rule for each value of GETPIXEL_ADDRESSING, and the bounds rule. -/
theorem getPixelReadsOneCell : Obligations.GetPixelReadsOneCell := fun x y _s hready =>
  ⟨Laws.RowMatch.getPixel x y, xField_encode _, yField_encode _,
    fun hx hy hmap => exec_getPixel_mapped hready hmap ⟨x, hx⟩ ⟨y, hy⟩,
    fun hx hy hlog => exec_getPixel_logical hready hlog ⟨x, hx⟩ ⟨y, hy⟩, exec_getPixel_of_gt hready⟩

end Sys2Proof.Machine
end

section
/-! PROOF of O29 and O31. A body that draws ends in the state DRAW leaves, whatever its response; a body that does not
keeps PANEL_FRAME, the frame and, unless it is SET_ORIENTATION's, the orientation; no other step draws. -/

namespace Sys2Proof.Machine

/-! ## The steps that execute no command -/

theorem step_of_reset {s : State} {d : Discovery} {rest : List HostInput} (h : s.pending = .reset d :: rest) :
    step s = .next (construct d { s with pending := rest }) := by
  unfold step
  rw [h]

theorem step_of_decode_error {s : State} {c : StepInput} {rest : List HostInput} {e : DecodeError}
    (h : s.pending = .command c :: rest) (he : decode c.cmd = .error e) :
    step s = .next (illegal e (accept c rest s)) := by
  simp only [step, h, he]

/-! ## The body of a command, by whether it draws -/

/-- A body that draws leaves PANEL_FRAME, and the one event it appends, as DRAW makes them. -/
theorem execBody_of_draws {i : Instr} (h : drawsFrame i = true) (s : State) :
    Coherent (execBody i s) ∧
      (execBody i s).events =
        s.events ++ [.frameWrite (rotate (execBody i s).frame (execBody i s).orientation)] := by
  obtain ⟨hdraw, -⟩ | ⟨-, -, m, o, r, he⟩ | ⟨hdraw, -⟩ := execBody_cases i s
  · cases h.symm.trans hdraw
  · rw [he]
    exact ⟨rfl, rfl⟩
  · cases h.symm.trans hdraw

/-- A body that does not draw leaves RAW_FRAME, PANEL_FRAME and the FrameWrites alone. -/
theorem execBody_of_not_draws {i : Instr} (h : drawsFrame i = false) (s : State) :
    (execBody i s).frame = s.frame ∧ (execBody i s).panelFrame = s.panelFrame ∧
      frameWrites (execBody i s).events = frameWrites s.events := by
  obtain ⟨-, -, o, r, he⟩ | ⟨hdraw, -⟩ | ⟨-, -, q, p, he⟩ := execBody_cases i s
  · rw [he]
    exact ⟨rfl, rfl, rfl⟩
  · cases h.symm.trans hdraw
  · simp [he]

/-- Only SET_ORIENTATION writes ORIENTATION. -/
theorem execBody_orientation (i : Instr) (s : State) :
    (∃ o rd, i = .setOrientation o rd) ∨ (execBody i s).orientation = s.orientation := by
  cases i with
  | setOrientation o rd => exact .inl ⟨o, rd, rfl⟩
  | setPixel x y =>
    refine .inr ?_
    simp only [execBody, setPixelBody]
    split <;> rfl
  | getPixel x y =>
    refine .inr ?_
    simp only [execBody, getPixelBody]
    split <;> rfl
  | setGamma =>
    refine .inr ?_
    simp only [execBody, setGammaBody]
    split
    · exact ctlRespond_orientation ..
    · rfl
  | setPixels | getPixels | clear b => exact .inr rfl
  | flipH rd | flipV rd => cases rd <;> exact .inr rfl
  | getGamma | resetGamma | isLowLight | setLowLight b => exact .inr (ctlRespond_orientation ..)

/-! ## Coherence -/

/-- Coherence reads RAW_FRAME, ORIENTATION and PANEL_FRAME only. -/
theorem Coherent.congr {s t : State} (h : Coherent s) (hpanel : t.panelFrame = s.panelFrame)
    (hframe : t.frame = s.frame) (horient : t.orientation = s.orientation) : Coherent t := by
  rw [Coherent, hpanel, hframe, horient]
  exact h

theorem Coherent.execBody {s : State} (h : Coherent s) (i : Instr) :
    Coherent (execBody i s) ∨ ∃ o, i = .setOrientation o false := by
  cases hdraw : drawsFrame i with
  | true => exact .inl (execBody_of_draws hdraw s).1
  | false =>
    obtain ⟨o, rd, rfl⟩ | horient := execBody_orientation i s
    · cases hdraw
      exact .inr ⟨o, rfl⟩
    · obtain ⟨hframe, hpanel, -⟩ := execBody_of_not_draws hdraw s
      exact .inl (h.congr hpanel hframe horient)

theorem Coherent.exec {s t : State} {i : Instr} (h : Coherent s) (he : exec i s = .next t) :
    Coherent t ∨ ∃ o, i = .setOrientation o false := by
  rw [exec_eq_command] at he
  obtain ⟨-, rfl⟩ | ⟨c, -, rfl⟩ := command_cases he
  · exact h.execBody i
  · exact .inl h

/-- Settles O31: a command keeps RAW_FRAME, ORIENTATION and PANEL_FRAME, or draws, or is SET_ORIENTATION without redraw;
of the other steps only a reset touches the three. -/
theorem panelCoherenceKept : Obligations.PanelCoherenceKept := by
  refine ⟨fun s t hstep h => ?_, fun i s hready hdraw => ⟨_, exec_ready hready i, (execBody_of_draws hdraw s).1⟩⟩
  obtain ⟨-, rfl⟩ | ⟨d, rest, hp, -⟩ | ⟨c, rest, e, -, -, rfl⟩ | ⟨c, rest, i, hp, hd, he⟩ := step_cases hstep
  · exact .inl h
  · exact .inr (.inr ⟨d, rest, hp⟩)
  · exact .inl h
  · obtain ht | ⟨o, rfl⟩ := Coherent.exec (s := accept c rest s) h he
    · exact .inl ht
    · exact .inr (.inl ⟨c, rest, o, hp, hd⟩)

/-- Settles O29: the two kinds of body in READY; in FAILED, on an illegal word and in a reset no body runs. -/
theorem drawRunsExactlyWhereStated : Obligations.DrawRunsExactlyWhereStated := by
  refine ⟨fun i s hready => ⟨_, exec_ready hready i, (execBody_of_draws · s), fun hdraw =>
    (execBody_of_not_draws hdraw s).2⟩, fun i s hfailed => ?_, fun s c rest e hp he =>
    ⟨_, step_of_decode_error hp he, rfl, rfl⟩, fun s d rest hp => ⟨_, step_of_reset hp, rfl, rfl⟩⟩
  cases hl : s.lifecycle with
  | ready => exact absurd hl hfailed
  | failed c => exact ⟨_, (exec_eq_command i s).trans (command_failed hl _), rfl, rfl⟩

end Sys2Proof.Machine
end

section
/-! PROOF of O38, O39, O40, O45 and O46. The operands B, RD and ORI stand in their bits of the word; SET_PIXELS and
GET_PIXELS copy the grid cell by cell; and CLEAR's frame is uniform, so ROTATE fixes it at every orientation. -/

namespace Sys2Proof

/-! ## The operand bits of a command word -/

theorem boolOfBit_extractLsb' {n : Nat} (w : BitVec n) (k : Nat) : boolOfBit (w.extractLsb' k 1) = w.getLsbD k := by
  have hbit : w.extractLsb' k 1 = BitVec.ofBool (w.getLsbD k) := by
    ext i hi
    simp [show i = 0 by omega]
  rw [hbit, boolOfBit_ofBool]

theorem bBit_encode (i : Instr) : (encode i).getLsbD 8 = boolOfBit i.fields.b := by
  rw [← CmdFields.ofWord_encode]
  exact (boolOfBit_extractLsb' _ _).symm

theorem rdBit_encode (i : Instr) : (encode i).getLsbD 9 = boolOfBit i.fields.rd := by
  rw [← CmdFields.ofWord_encode]
  exact (boolOfBit_extractLsb' _ _).symm

theorem oriField_encode (i : Instr) : (encode i).extractLsb' 10 2 = i.fields.ori :=
  congrArg CmdFields.ori (CmdFields.ofWord_encode i)

end Sys2Proof

namespace Sys2Proof.Machine

/-! ## SET_PIXELS, GET_PIXELS and SET_ORIENTATION -/

/-- Settles O38: each cell of the stored frame is PACK of the bus element of the same index. -/
theorem setPixelsReplacesFrame : Obligations.SetPixelsReplacesFrame := by
  intro s hready
  refine ⟨Laws.RowMatch.setPixels, frameOfGrid (gridOfBus s.port.frameIn), exec_ready hready _, fun i hi => ?_⟩
  rw [cell_frameOfGrid _ i hi, gridOfBus_get _ i hi, pixelOfBus]

/-- Settles O39: each element of FRAME_OUT is UNPACK of the cell of the same index. -/
theorem getPixelsReadsLogicalOrder : Obligations.GetPixelsReadsLogicalOrder := by
  intro s hready
  refine ⟨Laws.RowMatch.getPixels, _, exec_ready hready _, fun i hi => ?_⟩
  rw [busOfGrid_get _ i hi, gridOfFrame_get _ i hi, busOfPixel]

/-- Settles O45: the operand fields of the word, and the body with each value of RD. -/
theorem setOrientationStores : Obligations.SetOrientationStores := by
  intro o rd s hready
  refine ⟨Laws.RowMatch.setOrientation o rd, ?_, (rdBit_encode _).trans (boolOfBit_ofBool rd), ?_, ?_⟩
  · rw [oriField_encode]
    cases o <;> rfl
  · rintro rfl
    exact exec_ready hready _
  · rintro rfl
    exact exec_ready hready _

/-! ## Uniform frames -/

/-- A frame in canonical form has no byte beyond offset 127. -/
theorem Memory.byte_of_le {m : Memory} (h : m.wf = true) {k : Nat} (hk : 128 ≤ k) : Memory.byte m k = 0 := by
  obtain ⟨-, hentry⟩ := (Memory.wf_iff m).mp h
  exact Memory.byte_eq_of_forall_ne fun c hc => by have := (hentry c hc).1; omega

/-- ROTATE fixes a uniform frame as data, and not only byte by byte (R161). -/
theorem rotate_uniform {m : Memory} (hwf : m.wf = true) {w : Word} (h : ∀ i, i < 64 → Memory.cell m i = w)
    (o : Orientation) : rotate m o = m := by
  refine Memory.ext_of_wf (wf_rotate hwf o) hwf fun k => ?_
  obtain hk | hk := Nat.lt_or_ge k 128
  · exact rotatePlacesCells.2 m o w h k hk
  · rw [Memory.byte_of_le (wf_rotate hwf o) hk, Memory.byte_of_le hwf hk]

/-! ## CLEAR -/

theorem byte_clearFrame_false (color : ColorBus) (k : Nat) : Memory.byte (clearFrame false color) k = 0 := by
  simp [clearFrame]

theorem cell_clearFrame_true (color : ColorBus) {i : Nat} (hi : i < 64) :
    Memory.cell (clearFrame true color) i = pack (pixelOfBus color) := by
  rw [clearFrame, Memory.cell_ofCells _ hi]

theorem clearFrame_uniform (b : Bool) (color : ColorBus) :
    ∃ w, ∀ i, i < 64 → Memory.cell (clearFrame b color) i = w := by
  cases b with
  | false => exact ⟨0, fun i _ => by simp [Memory.cell_eq_bytes, byte_clearFrame_false]⟩
  | true => exact ⟨_, fun i hi => cell_clearFrame_true color hi⟩

/-- CLEAR draws the same buffer at every orientation (R170). -/
theorem rotate_clearFrame (b : Bool) (color : ColorBus) (o : Orientation) :
    rotate (clearFrame b color) o = clearFrame b color := by
  obtain ⟨w, hw⟩ := clearFrame_uniform b color
  exact rotate_uniform (wf_clearFrame b color) hw o

/-- CLEAR with the buffer it draws named. -/
theorem clearBody_eq (b : Bool) (s : State) :
    clearBody b s =
      { s with
        frame := clearFrame b s.port.colorIn
        panelFrame := clearFrame b s.port.colorIn
        events := s.events ++ [.frameWrite (clearFrame b s.port.colorIn)]
        response := .ok .none } := by
  simp only [clearBody, respond, storeAndDraw, draw, emit, rotate_clearFrame]

/-- Settles O40: the frame CLEAR stores is the buffer it draws. -/
theorem clearFillsFrame : Obligations.ClearFillsFrame := by
  intro b s hready
  refine ⟨Laws.RowMatch.clear b, (bBit_encode _).trans (boolOfBit_ofBool b), clearFrame b s.port.colorIn,
    (exec_ready hready _).trans (congrArg _ (clearBody_eq b s)), ?_, ?_⟩
  · rintro rfl
    exact byte_clearFrame_false _
  · rintro rfl i hi
    exact cell_clearFrame_true _ hi

/-! ## CLEAR, then SET_ORIENTATION without redraw -/

/-- The state after R277's two commands. -/
theorem execSeq_clear_setOrientation {s : State} (h : s.lifecycle = .ready) (b : Bool) (o : Orientation)
    (c : StepInput) :
    execSeq [(.clear b, c), (.setOrientation o false, c)] s =
      .next { s with
        frame := clearFrame b c.colorIn
        orientation := o
        panelFrame := clearFrame b c.colorIn
        events := s.events ++ [.frameWrite (clearFrame b c.colorIn)]
        response := .ok .none
        port := c } := by
  rw [execSeq_cons_ready h, execBody, clearBody_eq]
  exact execSeq_cons_ready (by exact h) _ _ _

/-- Settles O46: the two final states hold the same frame, orientation and PANEL_FRAME, whatever the first ones held. -/
theorem bootSequenceDefinesFrame : Obligations.BootSequenceDefinesFrame := fun b o _s _s' c hready hready' =>
  ⟨_, _, execSeq_clear_setOrientation hready b o c, execSeq_clear_setOrientation hready' b o c,
    rfl, rfl, rfl, rfl, _, rfl, rfl⟩

end Sys2Proof.Machine
end

section
/-! PROOF of O41 to O44. Both flips permute the elements of the grid GET_PIXELS reads, and differ in the permutation
only; a grid read from a frame survives PACK and UNPACK, so a second flip restores it, stored or not. -/

namespace Sys2Proof.Machine

/-! ## The two permutations of a grid -/

theorem flipRows_get (g : Grid) (i : Nat) (h : i < 64) :
    (flipRows g)[i] = g[(7 - i % 8) + 8 * (i / 8)]'(by omega) := by
  simp [flipRows]

theorem swapRows_get (g : Grid) (i : Nat) (h : i < 64) :
    (swapRows g)[i] = g[i % 8 + 8 * (7 - i / 8)]'(by omega) := by
  simp [swapRows]

theorem flipRows_flipRows (g : Grid) : flipRows (flipRows g) = g := by
  ext1 i hi
  simp only [flipRows_get]
  congr 1
  omega

theorem swapRows_swapRows (g : Grid) : swapRows (swapRows g) = g := by
  ext1 i hi
  simp only [swapRows_get]
  congr 1
  omega

/-- The two flips together are the half turn (R178). -/
theorem flipRows_swapRows_get (g : Grid) (i : Nat) (h : i < 64) : (flipRows (swapRows g))[i] = g[63 - i] := by
  simp only [flipRows_get, swapRows_get]
  congr 1
  omega

theorem swapRows_flipRows_get (g : Grid) (i : Nat) (h : i < 64) : (swapRows (flipRows g))[i] = g[63 - i] := by
  simp only [flipRows_get, swapRows_get]
  congr 1
  omega

theorem flipRows_map (g : Grid) (φ : Pixel → Pixel) : flipRows (g.map φ) = (flipRows g).map φ := by
  ext1 i hi
  simp only [flipRows_get, Vector.getElem_map]

theorem swapRows_map (g : Grid) (φ : Pixel → Pixel) : swapRows (g.map φ) = (swapRows g).map φ := by
  ext1 i hi
  simp only [swapRows_get, Vector.getElem_map]

/-! ## Grids read from frames -/

theorem gridOfFrame_frameOfGrid (g : Grid) : gridOfFrame (frameOfGrid g) = g.map fun p => unpack (pack p) := by
  ext1 i hi
  rw [gridOfFrame_get _ i hi, cell_frameOfGrid g i hi, Vector.getElem_map]

theorem flipRows_gridOfFrame_get (m : Memory) (x y : Nat) (hx : x < 8) (hy : y < 8) :
    (flipRows (gridOfFrame m))[x + 8 * y] = unpack (Memory.cell m ((7 - x) + 8 * y)) := by
  rw [flipRows_get, gridOfFrame_get, show (x + 8 * y) % 8 = x by omega, show (x + 8 * y) / 8 = y by omega]

theorem swapRows_gridOfFrame_get (m : Memory) (x y : Nat) (hx : x < 8) (hy : y < 8) :
    (swapRows (gridOfFrame m))[x + 8 * y] = unpack (Memory.cell m (x + 8 * (7 - y))) := by
  rw [swapRows_get, gridOfFrame_get, show (x + 8 * y) % 8 = x by omega, show (x + 8 * y) / 8 = y by omega]

/-- A grid that was read from a frame is not changed by storing and reading it (R104). -/
theorem gridOfFrame_map_repack (m : Memory) :
    (gridOfFrame m).map (fun p => unpack (pack p)) = gridOfFrame m := by
  ext1 i hi
  rw [Vector.getElem_map, gridOfFrame_get m i hi, unpack_pack_unpack]

/-! ## A flip command -/

/-- `flip` is a command that answers the grid permuted by `perm`, and stores it with RD (R174, R177). -/
def IsFlip (flip : Bool → Instr) (perm : Grid → Grid) : Prop :=
  ∀ rd s, execBody (flip rd) s = finishFlip rd (perm (gridOfFrame s.frame)) s

theorem isFlip_flipH : IsFlip .flipH flipRows := fun _ _ => rfl

theorem isFlip_flipV : IsFlip .flipV swapRows := fun _ _ => rfl

theorem finishFlip_response (rd : Bool) (g : Grid) (s : State) :
    (finishFlip rd g s).response = .ok (.frame (busOfGrid g)) := by
  cases rd <;> rfl

theorem finishFlip_lifecycle (rd : Bool) (g : Grid) (s : State) : (finishFlip rd g s).lifecycle = s.lifecycle := by
  cases rd <;> rfl

theorem finishFlip_frame (g : Grid) (s : State) : (finishFlip true g s).frame = frameOfGrid g := rfl

section
variable {flip : Bool → Instr} {perm : Grid → Grid} (hflip : IsFlip flip perm) {s : State}
  (hready : s.lifecycle = .ready)
include hflip hready

theorem exec_flip (rd : Bool) : exec (flip rd) s = .next (finishFlip rd (perm (gridOfFrame s.frame)) s) :=
  (exec_ready hready _).trans (congrArg _ (hflip rd s))

/-- The grid a flip answers with either RD. -/
theorem exec_flip_of_grid {g : Grid} (hg : gridOfFrame s.frame = g) (rd : Bool) :
    ∃ u, exec (flip rd) s = .next u ∧ u.response = .ok (.frame (busOfGrid (perm g))) :=
  ⟨_, exec_flip hflip hready rd, hg ▸ finishFlip_response ..⟩

end

/-- R174 and R177 for a flip that takes the pixel at (x, y) from cell `src x y`: the grid it answers, and with redraw
the frame it stores. -/
theorem IsFlip.exec_spec {flip : Bool → Instr} {perm : Grid → Grid} (hflip : IsFlip flip perm)
    {src : Nat → Nat → Nat} (hget : ∀ (m : Memory) (x y : Nat) (hx : x < 8) (hy : y < 8),
      (perm (gridOfFrame m))[x + 8 * y] = unpack (Memory.cell m (src x y)))
    {s : State} (hready : s.lifecycle = .ready) (rd : Bool) :
    ∃ f : FrameBus,
      (∀ (x y : Nat) (hx : x < 8) (hy : y < 8),
        f[x + 8 * y] = busOfPixel (unpack (Memory.cell s.frame (src x y)))) ∧
      (rd = false → exec (flip rd) s = .next (respond (.frame f) s)) ∧
      (rd = true → ∃ m : Memory, exec (flip rd) s = .next (respond (.frame f) (storeAndDraw m s)) ∧
        ∀ x y : Nat, x < 8 → y < 8 →
          Memory.cell m (x + 8 * y) = pack (unpack (Memory.cell s.frame (src x y)))) := by
  refine ⟨busOfGrid (perm (gridOfFrame s.frame)), fun x y hx hy => ?_, ?_, ?_⟩
  · rw [busOfGrid_get, hget _ x y hx hy]
  · rintro rfl
    exact exec_flip hflip hready false
  · rintro rfl
    refine ⟨_, exec_flip hflip hready true, fun x y hx hy => ?_⟩
    rw [cell_frameOfGrid _ _ (by omega), hget _ x y hx hy]

theorem getPixelsAnswer_gridOfFrame {s : State} (h : s.lifecycle = .ready) :
    getPixelsAnswer s (.ok (.frame (busOfGrid (gridOfFrame s.frame)))) :=
  ⟨_, exec_ready h _, rfl⟩

/-- R176 for a flip whose permutation is its own inverse and moves elements without changing them: a flip with redraw
leaves a frame that reads as the permuted grid. -/
theorem IsFlip.flipInvolution {flip : Bool → Instr} {perm : Grid → Grid} (hflip : IsFlip flip perm)
    (hinv : ∀ g, perm (perm g) = g) (hmap : ∀ g φ, perm (g.map φ) = (perm g).map φ) : FlipInvolution flip perm := by
  refine ⟨hinv, fun s hready => ?_⟩
  have hready' (rd : Bool) : (finishFlip rd (perm (gridOfFrame s.frame)) s).lifecycle = .ready :=
    (finishFlip_lifecycle ..).trans hready
  have hgrid : gridOfFrame (finishFlip true (perm (gridOfFrame s.frame)) s).frame = perm (gridOfFrame s.frame) := by
    rw [finishFlip_frame, gridOfFrame_frameOfGrid, ← hmap, gridOfFrame_map_repack]
  refine ⟨⟨_, exec_flip hflip hready true, fun rd => ?_, _, exec_flip hflip (hready' true) true, fun i hi => ?_⟩,
    _, exec_flip hflip hready false, fun rd => ?_⟩
  · obtain ⟨u, hu, hresponse⟩ := exec_flip_of_grid hflip (hready' true) hgrid rd
    refine ⟨u, hu, ?_⟩
    rw [hresponse, hinv]
    exact getPixelsAnswer_gridOfFrame hready
  · rw [finishFlip_frame, hgrid, hinv, cell_frameOfGrid _ i hi, gridOfFrame_get _ i hi]
  · obtain ⟨u, hu, hresponse⟩ := exec_flip_of_grid hflip (hready' false) rfl rd
    exact ⟨u, hu, hresponse, rfl⟩

/-! ## The statements -/

/-- Settles O41: the row reversal takes the pixel at (x, y) from (7 - x, y). -/
theorem flipHMirrorsRows : Obligations.FlipHMirrorsRows := fun rd _s hready =>
  ⟨Laws.RowMatch.flipH rd, (rdBit_encode _).trans (boolOfBit_ofBool rd),
    isFlip_flipH.exec_spec flipRows_gridOfFrame_get hready rd⟩

/-- Settles O42: the row swap takes the pixel at (x, y) from (x, 7 - y). -/
theorem flipVSwapsRows : Obligations.FlipVSwapsRows := fun rd _s hready =>
  ⟨Laws.RowMatch.flipV rd, (rdBit_encode _).trans (boolOfBit_ofBool rd),
    isFlip_flipV.exec_spec swapRows_gridOfFrame_get hready rd⟩

/-- Settles O43: the row reversal is its own inverse. -/
theorem flipHInvolution : Obligations.FlipHInvolution :=
  isFlip_flipH.flipInvolution flipRows_flipRows flipRows_map

/-- Settles O44: the row swap is its own inverse, and in either order the two flips are the half turn. -/
theorem flipVInvolution : Obligations.FlipVInvolution := by
  refine ⟨isFlip_flipV.flipInvolution swapRows_swapRows swapRows_map, fun g => ?_, fun g i hi => ?_⟩
  · ext1 i hi
    rw [flipRows_swapRows_get g i hi, swapRows_flipRows_get g i hi]
  · rw [flipRows_swapRows_get g (63 - i) (by omega)]
    congr 1
    omega

end Sys2Proof.Machine
end

section
/-! PROOF of O53. A gamma command's body, run with another RAW_FRAME, ORIENTATION and PANEL_FRAME, ends in the same
state with those three as they were given; a raster command's does so with another GAMMA_LUT. -/

namespace Sys2Proof.Machine

/-- The same state with another RAW_FRAME, ORIENTATION and PANEL_FRAME. -/
def State.withRaster (s : State) (m panel : Memory) (o : Orientation) : State :=
  { s with frame := m, orientation := o, panelFrame := panel }

/-- The same state with another GAMMA_LUT. -/
def State.withGamma (s : State) (lut : GammaTable) : State := { s with gammaLut := lut }

/-! ## The gamma commands -/

theorem ctlRespond_withRaster (q : Request) (p : Payload) (s : State) (m panel : Memory) (o : Orientation) :
    ctlRespond q p (s.withRaster m panel o) = (ctlRespond q p s).withRaster m panel o := by
  rw [ctlRespond_eq, ctlRespond_eq]
  rfl

theorem execBody_gamma_withRaster {i : Instr} (h : isGamma i = true) (s : State) (m panel : Memory)
    (o : Orientation) : execBody i (s.withRaster m panel o) = (execBody i s).withRaster m panel o := by
  cases i with
  | getGamma | resetGamma | isLowLight | setLowLight b => exact ctlRespond_withRaster ..
  | setGamma =>
    simp only [execBody, setGammaBody, State.withRaster]
    split
    · exact ctlRespond_withRaster ..
    · rfl
  | setPixel x y | getPixel x y | setPixels | getPixels | clear b | flipH rd | flipV rd | setOrientation ori rd =>
    cases h

theorem execBody_gamma_frameWrites {i : Instr} (h : isGamma i = true) (s : State) :
    frameWrites (execBody i s).events = frameWrites s.events := by
  obtain he | ⟨q, p, he, -⟩ := execBody_gamma_cases h s <;> simp [he]

/-! ## The raster commands -/

theorem execBody_raster_withGamma {i : Instr} (h : isGamma i = false) (s : State) (lut : GammaTable) :
    execBody i (s.withGamma lut) = (execBody i s).withGamma lut := by
  cases i with
  | setPixel x y =>
    simp only [execBody, setPixelBody]
    split <;> rfl
  | getPixel x y =>
    simp only [execBody, getPixelBody, State.withGamma]
    split <;> rfl
  | setPixels | getPixels | clear b => rfl
  | flipH rd | flipV rd | setOrientation ori rd => cases rd <;> rfl
  | getGamma | setGamma | resetGamma | isLowLight | setLowLight b => cases h

theorem execBody_raster_ctlCalls {i : Instr} (h : isGamma i = false) (s : State) :
    ctlCalls (execBody i s).events = ctlCalls s.events := by
  obtain ⟨o, r, he⟩ | ⟨m, o, r, he⟩ := execBody_raster_cases h s <;> simp [he]

/-- Settles O53: in READY the two runs' bodies differ in what they were given only, and in FAILED no body runs. -/
theorem gammaAndRasterIndependent : Obligations.GammaAndRasterIndependent := by
  intro i s
  simp only [exec_eq_command]
  refine ⟨_, rfl, ?_⟩
  obtain ⟨hl, he⟩ | ⟨c, hl, he⟩ := command_cases (s := s) (body := execBody i) rfl
  · rw [he]
    refine ⟨fun h => ⟨execBody_gamma_frameWrites h s, fun m panel o => ?_⟩,
      fun h => ⟨execBody_raster_ctlCalls h s, fun lut => ?_⟩⟩
    · exact (command_ready (s := s.withRaster m panel o) hl _).trans
        (congrArg _ (execBody_gamma_withRaster h s m panel o))
    · exact (command_ready (s := s.withGamma lut) hl _).trans (congrArg _ (execBody_raster_withGamma h s lut))
  · rw [he]
    exact ⟨fun _ => ⟨rfl, fun m panel o => command_failed (s := s.withRaster m panel o) hl _⟩,
      fun _ => ⟨rfl, fun lut => command_failed (s := s.withGamma lut) hl _⟩⟩

end Sys2Proof.Machine
end

section
/-! PROOF of O47 to O51. Every gamma command, once SET_GAMMA's check has passed, is one control call followed by its
answer, so one lemma gives the three outcomes of a call: success, failure unchecked, failure checked. -/

namespace Sys2Proof.Machine

/-! ## The three outcomes of a control call -/

/-- The data of a request's control call when the device answers `t` (R202, R203): only CTL_GET_GAMMA returns any. -/
def Request.returned : Request → GammaTable → Option GammaTable
  | .getGamma, t => some t
  | .setGamma _, _ => none
  | .resetGamma _, _ => none

theorem ctlData_eq_returned (q : Request) (s : State) : ctlData q s = q.returned (ctlTable s) := by
  cases q <;> rfl

/-- `s` after the call `q` with result `res` and answered table `t`, which left `lut` in GAMMA_LUT and was answered
with `r`. -/
def State.afterCall (s : State) (q : Request) (res : CtlResult) (t lut : GammaTable) (r : Response) : State :=
  { s with
    gammaLut := lut
    events := s.events ++ [.ctlCall q.code q.arg res (q.returned t)]
    response := r }

theorem ctlRespond_eq_afterCall (q : Request) (p : Payload) (s : State) :
    ctlRespond q p s =
      s.afterCall q s.port.ctlResult (ctlTable s) (ctlLut q s)
        (if s.port.ctlResult = .fail ∧ s.params.checkControlResult = true then .error .deviceError else .ok p) := by
  rw [ctlRespond_eq, State.afterCall, ← ctlData_eq_returned]
  rfl

/-- A command whose body is the call `q`, answered with a payload made from the table the call returns. -/
theorem exec_call_outcomes {i : Instr} {s : State} (hready : s.lifecycle = .ready) (q : Request)
    (p : GammaTable → Payload) (hbody : execBody i s = ctlRespond q (p (ctlTable s)) s) :
    (s.port.ctlResult = .ok → exec i s = .next
      (s.afterCall q .ok s.gammaLut (deviceDo s.params q s.gammaLut) (.ok (p s.gammaLut)))) ∧
    (s.port.ctlResult = .fail → s.params.checkControlResult = false → exec i s = .next
      (s.afterCall q .fail s.port.ctlDraw (deviceFail q s.port.ctlDraw s.gammaLut) (.ok (p s.port.ctlDraw)))) ∧
    (s.port.ctlResult = .fail → s.params.checkControlResult = true → exec i s = .next
      (s.afterCall q .fail s.port.ctlDraw (deviceFail q s.port.ctlDraw s.gammaLut) (.error .deviceError))) := by
  rw [exec_ready hready, hbody, ctlRespond_eq_afterCall]
  refine ⟨fun hok => ?_, fun hfail hunchecked => ?_, fun hfail hchecked => ?_⟩
  · simp [hok, ctlTable_ok hok, ctlLut_ok hok]
  · simp [hfail, hunchecked, ctlTable_fail hfail, ctlLut_fail hfail]
  · simp [hfail, hchecked, ctlTable_fail hfail, ctlLut_fail hfail]

/-! ## GET_GAMMA and IS_LOW_LIGHT -/

/-- Settles O47: the payload is the table the call returned. -/
theorem getGammaReturnsTable : Obligations.GetGammaReturnsTable := fun _s hready =>
  ⟨Laws.RowMatch.getGamma, exec_call_outcomes hready .getGamma .gamma rfl⟩

/-- IS_LOW_LIGHT's comparison, entry by entry (R220). -/
theorem decide_table_eq_iff (t u : GammaTable) :
    decide (t = u) = true ↔ ∀ (k : Nat) (h : k < 32), t[k] = u[k] :=
  decide_eq_true_iff.trans Vector.ext_iff

/-- Settles O50: the payload compares the table the call returned with LOW_LIGHT_TABLE. -/
theorem isLowLightComparesTable : Obligations.IsLowLightComparesTable := by
  intro s hready
  obtain ⟨hok, hunchecked, hchecked⟩ := exec_call_outcomes (i := .isLowLight) hready .getGamma
    (fun t => .bool (decide (t = s.params.lowLightTable))) rfl
  exact ⟨Laws.RowMatch.isLowLight, fun h => ⟨_, decide_table_eq_iff _ _, hok h⟩,
    fun h hc => ⟨_, decide_table_eq_iff _ _, hunchecked h hc⟩, hchecked⟩

/-! ## SET_GAMMA -/

theorem gammaLegal_iff (t : GammaTable) : gammaLegal t = true ↔ ∀ (k : Nat) (h : k < 32), t[k].toNat ≤ 31 :=
  t.legal_iff

theorem gammaLegal_eq_false {t : GammaTable} (h : ∃ (k : Nat) (h : k < 32), t[k].toNat > 31) :
    gammaLegal t = false := by
  obtain ⟨k, hk, hbig⟩ := h
  exact Bool.eq_false_iff.mpr fun hlegal => absurd ((gammaLegal_iff t).mp hlegal k hk) (Nat.not_le.mpr hbig)

theorem setGammaBody_of_illegal {s : State} (h : gammaLegal s.port.gammaIn = false) :
    setGammaBody s = raise .invalidGamma s := by
  rw [setGammaBody, h]

theorem setGammaBody_of_legal {s : State} (h : gammaLegal s.port.gammaIn = true) :
    setGammaBody s = ctlRespond (.setGamma s.port.gammaIn) .none s := by
  rw [setGammaBody, h]

/-- Settles O48: the check of R210 fails before any call; a table that passes it is the argument of the call. -/
theorem setGammaChecksThenWrites : Obligations.SetGammaChecksThenWrites := fun s hready =>
  ⟨Laws.RowMatch.setGamma,
    fun hbig => (exec_ready hready _).trans (congrArg _ (setGammaBody_of_illegal (gammaLegal_eq_false hbig))),
    fun hsmall => exec_call_outcomes hready (.setGamma s.port.gammaIn) (fun _ => .none)
      (setGammaBody_of_legal ((gammaLegal_iff _).mpr hsmall))⟩

/-! ## RESET_GAMMA and SET_LOW_LIGHT -/

theorem exec_setLowLight_false (s : State) : exec (.setLowLight false) s = exec .resetGamma s := rfl

/-- Settles O49: the call selects DEFAULT_GAMMA, as SET_LOW_LIGHT's does with B = 0. -/
theorem resetGammaLoadsDefault : Obligations.ResetGammaLoadsDefault := by
  intro s hready
  obtain ⟨hok, hunchecked, hchecked⟩ := exec_call_outcomes (i := .resetGamma) hready (.resetGamma .selDefault)
    (fun _ => .none) rfl
  exact ⟨Laws.RowMatch.resetGamma, hok, hunchecked, hchecked, (exec_setLowLight_false s).symm⟩

/-- Settles O51: with B = 1 the call selects LOW_LIGHT_TABLE; with B = 0 the command is RESET_GAMMA. -/
theorem setLowLightSelectsCurve : Obligations.SetLowLightSelectsCurve := by
  intro s hready
  obtain ⟨hok, hunchecked, hchecked⟩ := exec_call_outcomes (i := .setLowLight true) hready (.resetGamma .selLow)
    (fun _ => .none) rfl
  obtain ⟨-, hdefault, -⟩ := resetGammaLoadsDefault s hready
  exact ⟨fun b => ⟨Laws.RowMatch.setLowLight b, (bBit_encode _).trans (boolOfBit_ofBool b)⟩,
    hok, hunchecked, hchecked, hdefault, exec_setLowLight_false s⟩

end Sys2Proof.Machine
end

section
/-! PROOF of O19. A body that ends with an error has raised its operand error before doing anything, or has made a
control call that failed; in FAILED and on an illegal word no body runs. -/

namespace Sys2Proof.Machine

/-! ## How a body ends with an error -/

/-- A raster command rejects its coordinates or answers OK. -/
theorem execBody_raster_response {i : Instr} (h : isGamma i = false) (s : State) :
    execBody i s = raise .outOfBounds s ∨ ∃ p, (execBody i s).response = .ok p := by
  cases i with
  | setPixel x y | getPixel x y =>
    simp only [execBody, setPixelBody, getPixelBody]
    split
    · exact .inr ⟨_, rfl⟩
    · exact .inl rfl
  | setPixels | getPixels | clear b => exact .inr ⟨_, rfl⟩
  | flipH rd | flipV rd | setOrientation ori rd => cases rd <;> exact .inr ⟨_, rfl⟩
  | getGamma | setGamma | resetGamma | isLowLight | setLowLight b => cases h

theorem ctlRespond_of_error {q : Request} {p : Payload} {s : State} {e : Err}
    (h : (ctlRespond q p s).response = .error e) :
    e = .deviceError ∧ s.port.ctlResult = .fail ∧ ctlRespond q p s = raise .deviceError (ctl q s) := by
  obtain ⟨hfail, -, he⟩ | ⟨-, he⟩ := ctlRespond_cases q p s <;> rw [he] at h ⊢ <;> cases h
  exact ⟨rfl, hfail, rfl⟩

/-- Everything a body that ends with an error can have done (R247). -/
theorem execBody_of_error {i : Instr} {s : State} {e : Err} (h : (execBody i s).response = .error e) :
    (e ≠ .deviceError ∧ execBody i s = raise e s) ∨
    (e = .deviceError ∧ s.port.ctlResult = .fail ∧ ∃ q, execBody i s = raise .deviceError (ctl q s)) := by
  cases hi : isGamma i with
  | true =>
    obtain he | ⟨q, p, he, -⟩ := execBody_gamma_cases hi s <;> rw [he] at h ⊢
    · cases h
      exact .inl ⟨Err.noConfusion, rfl⟩
    · obtain ⟨herr, hfail, hraise⟩ := ctlRespond_of_error h
      exact .inr ⟨herr, hfail, q, hraise⟩
  | false =>
    obtain he | ⟨p, hok⟩ := execBody_raster_response hi s
    · rw [he] at h ⊢
      cases h
      exact .inl ⟨Err.noConfusion, rfl⟩
    · cases hok.symm.trans h

/-! ## What a failed control call leaves -/

theorem ctlLut_fail_eq_ite {s : State} (h : s.port.ctlResult = .fail) (q : Request) :
    ctlLut q s = if q.code = .getGamma then s.gammaLut else s.port.ctlDraw := by
  rw [ctlLut_fail h]
  cases q <;> rfl

theorem raise_ctl_of_fail {s : State} (h : s.port.ctlResult = .fail) (q : Request) :
    raise .deviceError (ctl q s) = { s with
      events := s.events ++ [.ctlCall q.code q.arg .fail (ctlData q s)]
      gammaLut := if q.code = .getGamma then s.gammaLut else s.port.ctlDraw
      response := .error .deviceError } := by
  rw [← ctlLut_fail_eq_ite h, ← h]
  rfl

/-- Settles O19: an operand error and a FAILED status are the whole effect; a control call's DEVICE_ERROR comes with
what the failed call leaves. -/
theorem errorEffects : Obligations.ErrorEffects := by
  refine ⟨fun i s t e hexec herr => ?_, fun s c rest e hp he => step_of_decode_error hp he⟩
  rw [exec_eq_command] at hexec
  obtain ⟨hready, rfl⟩ | ⟨c, hfailed, rfl⟩ := command_cases hexec
  · obtain ⟨hne, he⟩ | ⟨rfl, hfail, q, he⟩ := execBody_of_error herr <;> rw [he]
    · exact ⟨rfl, rfl, fun _ => rfl, fun _ h => absurd h hne⟩
    · exact ⟨rfl, rfl, fun h => (h.elim (· hready) (· rfl)).elim,
        fun _ _ => ⟨q.code, q.arg, ctlData q s, raise_ctl_of_fail hfail q⟩⟩
  · cases herr
    exact ⟨rfl, rfl, fun _ => rfl, fun hready => by cases hfailed.symm.trans hready⟩

end Sys2Proof.Machine
end

section
/-! PROOF of O5, O15 and O17. The OP of a word that fits a row selects that row, and the word has no other bit under
the row's mask; a FAILED status answers every command before its body runs; and every status code is below 6. -/

namespace Sys2Proof

/-! ## What fitting a row says of a word -/

/-- The OP of a word selects the row the word fits. -/
theorem Op.ofCode_of_fits {op : Op} {w : CmdWord} (h : w &&& op.mask = op.matchWord) :
    Op.ofCode (w.extractLsb' 28 4) = some op := by
  obtain ⟨hop, -⟩ := (op.fits_iff w).mp h
  exact (congrArg Op.ofCode hop).trans op.ofCode_code

/-- A match has no bit outside OP. -/
theorem Op.matchWord_outside_op (op : Op) : op.matchWord &&& 0x0FFFFFFF = 0 := by cases op <;> rfl

/-- R76: a word whose OP selects no row fits none. -/
theorem not_fits_of_ofCode_eq_none {w : CmdWord} (h : Op.ofCode (w.extractLsb' 28 4) = none) (op : Op) :
    w &&& op.mask ≠ op.matchWord := by
  intro hfit
  cases h.symm.trans (Op.ofCode_of_fits hfit)

/-- R77: a word with a bit under its row's mask outside OP fits no row: not its own, and no other has its OP. -/
theorem not_fits_of_stray_bits {w : CmdWord} {op : Op} (hop : w.extractLsb' 28 4 = op.code)
    (hstray : w &&& op.mask &&& 0x0FFFFFFF ≠ 0) (op' : Op) : w &&& op'.mask ≠ op'.matchWord := by
  intro hfit
  have hsel : Op.ofCode op.code = some op' := hop ▸ Op.ofCode_of_fits hfit
  cases op.ofCode_code.symm.trans hsel
  exact hstray (hfit ▸ op.matchWord_outside_op)

end Sys2Proof

namespace Sys2Proof.Machine

/-- Settles O5: a word that fits no row is rejected by the decoder, so its step only takes the command and answers;
a reserved OP selects no row, and a stray bit keeps a word from the one row its OP selects. -/
theorem unmatchedWordIsIllegal : Obligations.UnmatchedWordIsIllegal := by
  refine ⟨fun s c rest hpending hnofit => ?_, fun w hreserved => ?_, fun w op => not_fits_of_stray_bits⟩
  · obtain ⟨-, -, rejects_iff⟩ := decodeSelectsMatchingRow
    obtain ⟨e, he⟩ := (rejects_iff c.cmd).mpr hnofit
    exact step_of_decode_error hpending he
  · apply not_fits_of_ofCode_eq_none
    obtain h | h | h := hreserved <;> rw [h] <;> rfl

/-! ## Commands in FAILED, and the status codes -/

theorem exec_failed {s : State} {c : FailCause} (h : s.lifecycle = .failed c) (i : Instr) :
    exec i s = .next (raise c.err s) := by
  rw [exec_eq_command, command_failed h]

/-- Settles O15: `exec_failed` for both causes. -/
theorem failedLifecycleAnswersItsStatus : Obligations.FailedLifecycleAnswersItsStatus :=
  fun i _s => ⟨fun h => exec_failed h i, fun h => exec_failed h i⟩

theorem Response.status_lt_six (r : Response) : Response.status r < 6 := by
  cases r with
  | ok p => rw [Response.status]; decide
  | error e => cases e <;> decide

/-- Settles O17: the codes of the table by definition, and 6 and 7 because every code is below 6. -/
theorem statusCodes : Obligations.StatusCodes := by
  refine ⟨fun _ => rfl, rfl, rfl, rfl, rfl, rfl, fun r => ?_⟩
  have hlt := Response.status_lt_six r
  exact ⟨fun h => absurd (h ▸ hlt) (by decide), fun h => absurd (h ▸ hlt) (by decide)⟩

end Sys2Proof.Machine
end

section
/-! PROOF of O9. The step of a reset is the construction, whose effect on each field is already said once. -/

namespace Sys2Proof.Machine

/-- Settles O9: the step is `construct`, and the discovery draw decides the life cycle case by case. -/
theorem resetRunsConstruction : Obligations.ResetRunsConstruction := by
  intro s d rest hpending
  refine ⟨_, step_of_reset hpending, construct_events .., ?_, construct_frame .., construct_orientation ..,
    construct_gammaLut .., construct_panelFrame ..⟩
  rw [construct_lifecycle]
  cases d with
  | notFound | error | found => rfl

end Sys2Proof.Machine
end

section
/-! PROOF of O12, O13 and O16. The three ways a body ends keep the life cycle and the model's own fields; the frame a
body stores is in canonical form, and with it the buffer DRAW sends and logs. -/

namespace Sys2Proof.Machine

/-! ## What every command answers and keeps -/

/-- Every command answers a next state: its body's in READY, the FAILED status otherwise. -/
theorem exec_answers (i : Instr) (s : State) :
    ∃ t, exec i s = .next t ∧
      ((s.lifecycle = .ready ∧ t = execBody i s) ∨ ∃ c, s.lifecycle = .failed c ∧ t = raise c.err s) := by
  rw [exec_eq_command]
  exact ⟨_, rfl, command_cases rfl⟩

theorem execBody_keeps_inputs (i : Instr) (s : State) :
    (execBody i s).lifecycle = s.lifecycle ∧ (execBody i s).params = s.params ∧ (execBody i s).port = s.port ∧
      (execBody i s).pending = s.pending := by
  obtain ⟨-, -, o, r, he⟩ | ⟨-, -, m, o, r, he⟩ | ⟨-, -, q, p, he⟩ := execBody_cases i s <;> simp [he]

/-- Settles O16: in READY the body keeps the four fields; in FAILED the status is the whole effect. -/
theorem commandsKeepLifecycleAndInputs : Obligations.CommandsKeepLifecycleAndInputs := by
  intro i s
  obtain ⟨t, ht, ⟨-, rfl⟩ | ⟨c, -, rfl⟩⟩ := exec_answers i s
  · exact ⟨_, ht, execBody_keeps_inputs i s⟩
  · exact ⟨_, ht, rfl, rfl, rfl, rfl⟩

/-! ## The data invariant -/

/-- The frames the log shows are the buffers of its FrameWrites. -/
theorem mem_frameWrites {l : List Event} {buf : Memory} : buf ∈ frameWrites l ↔ .frameWrite buf ∈ l := by
  rw [frameWrites, List.mem_filterMap]
  constructor
  · rintro ⟨e, he, hbuf⟩
    cases e with
    | frameWrite b =>
      cases hbuf
      exact he
    | ctlCall req arg res data => cases hbuf
  · exact fun h => ⟨_, h, rfl⟩

/-- RAW_FRAME stays in canonical form: a body that draws stores a frame with one cell written, CLEAR's frame or a packed
grid, or redraws the old one. -/
theorem wf_frame_execBody {s : State} (h : s.frame.wf = true) (i : Instr) : (execBody i s).frame.wf = true := by
  cases hdraw : drawsFrame i with
  | false =>
    obtain ⟨hframe, -⟩ := execBody_of_not_draws hdraw s
    rwa [hframe]
  | true =>
    cases i with
    | setPixel x y =>
      simp only [execBody, setPixelBody]
      split
      · exact Memory.wf_setCell h (by omega) _
      · exact h
    | setPixels => exact wf_frameOfGrid _
    | clear b => exact wf_clearFrame b _
    | flipH rd | flipV rd =>
      cases hdraw
      exact wf_frameOfGrid _
    | setOrientation ori rd =>
      cases hdraw
      exact h
    | getPixel x y | getPixels | getGamma | setGamma | resetGamma | isLowLight | setLowLight b => cases hdraw

theorem Inv.execBody {s : State} (h : Inv s) (i : Instr) : Inv (execBody i s) := by
  obtain ⟨hframe, hpanel, hparams, hlog⟩ := h
  have hframe' := wf_frame_execBody hframe i
  obtain ⟨-, hparams', -⟩ := execBody_keeps_inputs i s
  rw [Inv, hparams']
  cases hdraw : drawsFrame i with
  | true =>
    obtain ⟨hpanel', hevents⟩ := execBody_of_draws hdraw s
    rw [hpanel', hevents]
    refine ⟨hframe', wf_rotate hframe' _, hparams, fun buf hbuf => ?_⟩
    obtain hold | hnew := List.mem_append.mp hbuf
    · exact hlog buf hold
    · cases List.mem_singleton.mp hnew
      exact wf_rotate hframe' _
  | false =>
    obtain ⟨-, hpanel', hwrites⟩ := execBody_of_not_draws hdraw s
    rw [hpanel']
    refine ⟨hframe', hpanel, hparams, fun buf hbuf => hlog buf ?_⟩
    rwa [← mem_frameWrites, hwrites, mem_frameWrites] at hbuf

theorem Inv.exec {s t : State} {i : Instr} (h : Inv s) (he : exec i s = .next t) : Inv t := by
  rw [exec_eq_command] at he
  obtain ⟨-, rfl⟩ | ⟨c, -, rfl⟩ := command_cases he
  · exact h.execBody i
  · exact h

/-- A reset loads INIT_FRAME, which R8 makes canonical, and empties the log. -/
theorem Inv.construct {s : State} (h : Inv s) (d : Discovery) : Inv (construct d s) := by
  obtain ⟨-, hpanel, hparams, -⟩ := h
  obtain ⟨hinit, -⟩ := s.params.wf_iff.mp hparams
  exact ⟨hinit, hpanel, hparams, fun _ hbuf => absurd hbuf List.not_mem_nil⟩

/-- Settles O13: `Inv.construct` for a reset and `Inv.exec` for a command; every other step touches none of the data. -/
theorem stepKeepsInvariant : Obligations.StepKeepsInvariant := by
  intro s t h hstep
  obtain ⟨-, rfl⟩ | ⟨d, rest, -, rfl⟩ | ⟨c, rest, e, -, -, rfl⟩ | ⟨c, rest, i, -, -, he⟩ := step_cases hstep
  · exact h
  · exact Inv.construct (s := { s with pending := rest }) h d
  · exact h
  · exact Inv.exec (s := accept c rest s) h he

theorem wf_params_reset : State.reset.params.wf = true :=
  (Params.wf_iff _).mpr
    ⟨Memory.wf_ofBytes _, Config.presets.default_legal, Config.presets.low_legal, Config.presets.differ⟩

/-- Settles O12: frames written byte by byte are canonical, and the presets carry the constraints of R8. -/
theorem resetMeetsInvariant : Obligations.ResetMeetsInvariant :=
  ⟨Memory.wf_ofBytes _, Memory.wf_ofBytes _, wf_params_reset, fun _ hbuf => absurd hbuf List.not_mem_nil⟩

end Sys2Proof.Machine
end

section
/-! PROOF of O7, O8, O10, O11 and O14. What the step does for each of the host's moves, and the values in the state
after reset, read off its definition. -/

namespace Sys2Proof.Machine

/-! ## The idle step and the step of a legal command -/

theorem step_of_idle {s : State} (h : s.pending = []) : step s = .next s := by
  simp only [step, h]

theorem step_of_decode_ok {s : State} {c : StepInput} {rest : List HostInput} {i : Instr}
    (h : s.pending = .command c :: rest) (hi : decode c.cmd = .ok i) : step s = exec i (accept c rest s) := by
  simp only [step, h, hi]

/-- Settles O8: `step` on an empty list of moves. -/
theorem idleStepWaits : Obligations.IdleStepWaits := fun _ => step_of_idle

/-- Settles O7: a decoded command is well formed by O3. -/
theorem stepRunsDecodedCommand : Obligations.StepRunsDecodedCommand := by
  intro s c rest i hpending hdecode
  obtain ⟨hwf, -⟩ := encodeOfDecode c.cmd i hdecode
  exact ⟨hwf, step_of_decode_ok hpending hdecode⟩

/-- Settles O14: by the host's next move, and for a command by what the decoder makes of its word. -/
theorem stepAlwaysAnswers : Obligations.StepAlwaysAnswers := by
  intro s
  cases hp : s.pending with
  | nil => exact ⟨s, step_of_idle hp⟩
  | cons move rest =>
    cases move with
    | reset d => exact ⟨_, step_of_reset hp⟩
    | command c =>
      cases hd : decode c.cmd with
      | error e => exact ⟨_, step_of_decode_error hp hd⟩
      | ok i =>
        obtain ⟨t, ht, -⟩ := exec_answers i (accept c rest s)
        exact ⟨t, (step_of_decode_ok hp hd).trans ht⟩

/-! ## The reset -/

theorem lifecycle_reset :
    State.reset.lifecycle = Lifecycle.ofDiscovery (Config.discover Config.deviceIdString) := rfl

theorem response_reset : State.reset.response = Response.ofLifecycle State.reset.lifecycle := rfl

/-- Settles O10: the construction answers what its life cycle gives, by the draw at a reset step and by the life cycle
after reset. -/
theorem resetAnswersHost : Obligations.ResetAnswersHost := by
  refine ⟨fun s d rest hpending => ⟨_, step_of_reset hpending, ?_, construct_params .., construct_port ..,
    construct_pending ..⟩, ?_⟩
  · rw [construct_response]
    cases d with
    | notFound | error | found => rfl
  · rw [response_reset]
    cases State.reset.lifecycle with
    | ready => rfl
    | failed c => cases c <;> rfl

theorem Memory.byte_ofBytes_of_lt (f : Nat → Byte) (k : Nat) (hk : k < 128) : Memory.byte (Memory.ofBytes f) k = f k :=
  (Memory.byte_ofBytes f k).trans (if_pos hk)

/-- Settles O11: the fields of `State.reset` by definition, its two frames byte by byte, and its life cycle by the
discovery draw. -/
theorem resetStateValues : Obligations.ResetStateValues := by
  refine ⟨rfl, Memory.byte_ofBytes_of_lt Config.initFrame, rfl, rfl, ?_, Memory.byte_ofBytes_of_lt Config.initPanel,
    rfl, rfl, rfl, rfl, rfl, rfl⟩
  rw [lifecycle_reset]
  cases Config.discover Config.deviceIdString with
  | notFound | error | found => rfl

end Sys2Proof.Machine
end

section
/-! PROOF of O18. In READY a body raises its operand error, or has none and ends as its kind of command does: a raster
command with OK, a gamma command with the answer of its one control call. -/

namespace Sys2Proof.Machine

/-- The body of a command, by its operand error (R142, R210). -/
theorem execBody_by_operandError (i : Instr) (s : State) :
    (∃ e, operandError i s.port.gammaIn = some e ∧ execBody i s = raise e s) ∨
    (operandError i s.port.gammaIn = none ∧ isGamma i = false ∧ ∃ p, (execBody i s).response = .ok p) ∨
    (operandError i s.port.gammaIn = none ∧ isGamma i = true ∧ ∃ q p, execBody i s = ctlRespond q p s) := by
  cases i with
  | setPixel x y =>
    by_cases hout : x > 7 ∨ y > 7
    · exact .inl ⟨_, if_pos hout, if_neg (not_inBounds hout)⟩
    · exact .inr (.inl ⟨if_neg hout, rfl, _, congrArg State.response (if_pos (by omega))⟩)
  | getPixel x y =>
    by_cases hout : x > 7 ∨ y > 7
    · exact .inl ⟨_, if_pos hout, dif_neg (not_inBounds hout)⟩
    · exact .inr (.inl ⟨if_neg hout, rfl, _, congrArg State.response (dif_pos (by omega))⟩)
  | setGamma =>
    by_cases hbig : ∃ k : Fin 32, s.port.gammaIn[k].toNat > 31
    · refine .inl ⟨_, if_pos hbig, setGammaBody_of_illegal (gammaLegal_eq_false ?_)⟩
      obtain ⟨k, hk⟩ := hbig
      exact ⟨k, k.isLt, hk⟩
    · refine .inr (.inr ⟨if_neg hbig, rfl, _, _, setGammaBody_of_legal ((gammaLegal_iff _).mpr fun k hk => ?_)⟩)
      exact Nat.not_lt.mp fun hlt => hbig ⟨⟨k, hk⟩, hlt⟩
  | setPixels | getPixels | clear b => exact .inr (.inl ⟨rfl, rfl, _, rfl⟩)
  | flipH rd | flipV rd | setOrientation ori rd => cases rd <;> exact .inr (.inl ⟨rfl, rfl, _, rfl⟩)
  | getGamma | resetGamma | isLowLight | setLowLight b => exact .inr (.inr ⟨rfl, rfl, _, _, rfl⟩)

/-! ## The first error that applies, by the life cycle and the operands -/

section
variable {i : Instr} {s : State}

theorem expectedError_of_failed {c : FailCause} (h : s.lifecycle = .failed c) : expectedError i s = some c.err := by
  unfold expectedError
  rw [h]
  cases c <;> rfl

theorem expectedError_of_operandError {e : Err} (hready : s.lifecycle = .ready)
    (h : operandError i s.port.gammaIn = some e) : expectedError i s = some e := by
  unfold expectedError
  rw [hready, h]

theorem expectedError_of_no_operandError (hready : s.lifecycle = .ready)
    (h : operandError i s.port.gammaIn = none) :
    expectedError i s =
      if isGamma i = true ∧ s.port.ctlResult = .fail ∧ s.params.checkControlResult = true then some .deviceError
      else none := by
  unfold expectedError
  rw [hready, h]

end

theorem execBody_response_eq_error_iff {s : State} (hready : s.lifecycle = .ready) (i : Instr) (e : Err) :
    (execBody i s).response = .error e ↔ expectedError i s = some e := by
  obtain ⟨e', herr, he⟩ | ⟨hnone, hraster, p, hok⟩ | ⟨hnone, hgamma, q, p, he⟩ := execBody_by_operandError i s
  · rw [expectedError_of_operandError hready herr, he]
    simp
  · rw [expectedError_of_no_operandError hready hnone, hok]
    simp [hraster]
  · rw [expectedError_of_no_operandError hready hnone, he, ctlRespond_response]
    by_cases hfail : s.port.ctlResult = .fail ∧ s.params.checkControlResult = true <;> simp [hgamma, hfail]

/-- Settles O18: the body in READY, the FAILED status otherwise. -/
theorem errorPrecedence : Obligations.ErrorPrecedence := by
  intro i s
  obtain ⟨t, ht, ⟨hready, rfl⟩ | ⟨c, hfailed, rfl⟩⟩ := exec_answers i s
  · exact ⟨_, ht, execBody_response_eq_error_iff hready i⟩
  · refine ⟨_, ht, fun e => ?_⟩
    rw [expectedError_of_failed hfailed]
    simp

end Sys2Proof.Machine
end

section
/-! PROOF of O54. A body run with another port ends in the same state with that port, when the two ports agree on what
its command reads. -/

namespace Sys2Proof.Machine

/-- The same state with another port. -/
def State.withPort (s : State) (c : StepInput) : State := { s with port := c }

/-- Two ports agree on the buses a command reads and, for a gamma command, on the draws (R72, R201, R202). -/
structure AgreeOnReads (i : Instr) (c c' : StepInput) : Prop where
  color : readsColor i = true → c.colorIn = c'.colorIn
  frame : readsFrame i = true → c.frameIn = c'.frameIn
  gamma : readsGamma i = true → c.gammaIn = c'.gammaIn
  draws : isGamma i = true → c.ctlResult = c'.ctlResult ∧ c.ctlDraw = c'.ctlDraw

/-! ## A control call with the same draws -/

section
variable {s : State} {c : StepInput} (hres : c.ctlResult = s.port.ctlResult) (hdraw : c.ctlDraw = s.port.ctlDraw)
include hres hdraw

theorem ctlTable_withPort : ctlTable (s.withPort c) = ctlTable s := by
  simp only [ctlTable, State.withPort, hres, hdraw]

theorem ctlLut_withPort (q : Request) : ctlLut q (s.withPort c) = ctlLut q s := by
  simp only [ctlLut, State.withPort, hres, hdraw]

theorem ctlRespond_withPort (q : Request) (p : Payload) :
    ctlRespond q p (s.withPort c) = (ctlRespond q p s).withPort c := by
  rw [ctlRespond_eq_afterCall, ctlRespond_eq_afterCall, ctlTable_withPort hres hdraw, ctlLut_withPort hres hdraw]
  simp only [State.withPort, hres]
  rfl

end

/-! ## The commands -/

/-- CLEAR reads the colour with B only (R170). -/
theorem clearFrame_congr {b : Bool} {color color' : ColorBus} (h : b = true → color = color') :
    clearFrame b color = clearFrame b color' := by
  cases b with
  | true => rw [h rfl]
  | false => simp only [clearFrame]

theorem execBody_withPort {i : Instr} {s : State} {c : StepInput} (h : AgreeOnReads i c s.port) :
    execBody i (s.withPort c) = (execBody i s).withPort c := by
  cases i with
  | setPixel x y =>
    simp only [execBody, setPixelBody, State.withPort, h.color rfl]
    split <;> rfl
  | getPixel x y =>
    simp only [execBody, getPixelBody, State.withPort]
    split <;> rfl
  | setPixels =>
    simp only [execBody, setPixelsBody, State.withPort, h.frame rfl]
    rfl
  | clear b =>
    have hframe : clearFrame b (s.withPort c).port.colorIn = clearFrame b s.port.colorIn := clearFrame_congr h.color
    simp only [execBody, clearBody, hframe]
    rfl
  | getPixels => rfl
  | flipH rd | flipV rd | setOrientation ori rd => cases rd <;> rfl
  | getGamma | isLowLight =>
    obtain ⟨hres, hdraw⟩ := h.draws rfl
    simp only [execBody, getGammaBody, isLowLightBody, ctlTable_withPort hres hdraw]
    exact ctlRespond_withPort hres hdraw ..
  | resetGamma | setLowLight b =>
    obtain ⟨hres, hdraw⟩ := h.draws rfl
    exact ctlRespond_withPort hres hdraw ..
  | setGamma =>
    obtain ⟨hres, hdraw⟩ := h.draws rfl
    have hgamma : (s.withPort c).port.gammaIn = s.port.gammaIn := h.gamma rfl
    simp only [execBody, setGammaBody, hgamma]
    split
    · exact ctlRespond_withPort hres hdraw ..
    · rfl

/-- Settles O54: in READY by `execBody_withPort`; in FAILED no body runs. -/
theorem unreadBusesIgnored : Obligations.UnreadBusesIgnored := by
  intro i s c hcolor hframe hgamma hdraws
  obtain ⟨t, ht, ⟨hready, rfl⟩ | ⟨cause, hfailed, rfl⟩⟩ := exec_answers i s
  · exact ⟨_, ht, (exec_ready (s := s.withPort c) hready i).trans
      (congrArg _ (execBody_withPort ⟨hcolor, hframe, hgamma, hdraws⟩))⟩
  · exact ⟨_, ht, exec_failed (s := s.withPort c) hfailed i⟩

end Sys2Proof.Machine
end

section
/-! PROOF of O6. The assembler bounds the coordinates as the command word does, so every command it accepts is well
formed and survives its encoding. -/

namespace Sys2Proof

/-! ## Mnemonics -/

/-- R81: a mnemonic names its opcode and no other. -/
theorem Op.ofMnemonic_eq_some_iff (cs : List Char) (op : Op) :
    Op.ofMnemonic cs = some op ↔ cs = op.mnemonic.toList := by
  constructor
  · intro h
    have hfound := List.find?_some h
    exact (of_decide_eq_true hfound).symm
  · rintro rfl
    cases op <;> decide

/-! ## Every accepted command is well formed -/

/-- R80 gives a coordinate the range of its field (R74). -/
theorem coordFits_of_asmCoord {cs : List Char} {v : Nat} (h : asmCoord cs = some v) : coordFits v = true := by
  simp only [asmCoord, Option.ite_none_left_eq_some, Option.bind_eq_some_iff, Option.ite_none_right_eq_some,
    Option.some.injEq] at h
  obtain ⟨-, n, -, hlt, rfl⟩ := h
  exact decide_eq_true hlt

/-- Only the two single-pixel commands carry operands that could be too wide, and both read them with `asmCoord`. -/
theorem Op.wf_asmOperands {names : AsmNames} {op : Op} {toks : List (List Char)} {l : AsmLine}
    (h : op.asmOperands names toks = some l) : l.instr.wf = true := by
  unfold Op.asmOperands at h
  split at h
  case h_1 =>
    simp only [Option.bind_eq_some_iff, Option.map_eq_some_iff] at h
    obtain ⟨x, hx, y, hy, c, -, rfl⟩ := h
    simp [Instr.wf, coordFits_of_asmCoord hx, coordFits_of_asmCoord hy]
  case h_2 =>
    simp only [Option.bind_eq_some_iff, Option.map_eq_some_iff] at h
    obtain ⟨x, hx, y, hy, rfl⟩ := h
    simp [Instr.wf, coordFits_of_asmCoord hx, coordFits_of_asmCoord hy]
  case h_9 =>
    simp only [Option.bind_eq_some_iff, Option.map_eq_some_iff] at h
    obtain ⟨o, -, rd, -, rfl⟩ := h
    rfl
  case h_3 | h_6 | h_7 | h_8 | h_11 | h_14 =>
    obtain ⟨v, -, rfl⟩ := Option.map_eq_some_iff.mp h
    rfl
  case h_4 | h_5 | h_10 | h_12 | h_13 =>
    cases h
    rfl
  case h_15 => cases h

theorem wf_of_assembleLine {names : AsmNames} {line : String} {l : AsmLine} (h : assembleLine names line = some l) :
    l.instr.wf = true := by
  unfold assembleLine at h
  split at h
  · cases h
  · obtain ⟨op, -, hop⟩ := Option.bind_eq_some_iff.mp h
    exact Op.wf_asmOperands hop

/-! ## The lines with a name, and the inputs of a line -/

theorem assembleLine_setPixels_grid (names : AsmNames) :
    assembleLine names "SET_PIXELS @grid" =
      (names.grids.lookup ['g', 'r', 'i', 'd']).map fun f => ⟨.setPixels, .frame f⟩ := rfl

theorem assembleLine_setGamma_table (names : AsmNames) :
    assembleLine names "SET_GAMMA @table" =
      (names.tables.lookup ['t', 'a', 'b', 'l', 'e']).map fun t => ⟨.setGamma, .gamma t⟩ := rfl

theorem AsmLine.input_cmd (l : AsmLine) (c : StepInput) : (l.input c).cmd = encode l.instr := by
  obtain ⟨i, bus⟩ := l
  cases bus <;> rfl

/-- Settles O6: the assembler run on a line of every form, the mnemonic table, and the round trip of O2 for the
well-formed command of an accepted line. -/
theorem assembledLinesDecode : Obligations.AssembledLinesDecode := by
  refine ⟨fun names => ?_, Op.ofMnemonic_eq_some_iff, fun names line l c h => ⟨?_, ?_⟩⟩
  · refine ⟨rfl, rfl, rfl, rfl, rfl, rfl, rfl, rfl, rfl, rfl, rfl, rfl, rfl, rfl, rfl, rfl, rfl, rfl,
      fun f hf => ?_, fun t ht => ?_⟩
    · rw [assembleLine_setPixels_grid, hf, Option.map_some]
    · rw [assembleLine_setGamma_table, ht, Option.map_some]
  · rw [AsmLine.input_cmd]
    exact decodeOfEncode _ (wf_of_assembleLine h)
  · obtain ⟨i, bus⟩ := l
    cases bus <;> rfl

end Sys2Proof
end
